-- ==== Sys2Proof/Word.lean ====
section
/-! DEFINITION. The byte and the fixed-length byte sequences of the core (00_scope.md section 6). -/

namespace Sys2Proof

/-- A byte: an unsigned integer in 0..255 (00_scope.md section 6). -/
abbrev Byte := BitVec 8

/-- A 32-byte sequence, offset 0 first: the receive buffer's contents or a response frame (30_encoding.md R31).
Whether it is a RawFrame is the predicate `Machine.isRawFrame`. -/
abbrev Frame := Vector Byte 32

/-- The 29 free bytes of a RawFrame, offsets 2 to 30 (30_encoding.md R31, R38). -/
abbrev Payload := Vector Byte 29

/-- A 7-byte sequence, offset 0 first: the poll command (30_encoding.md R32). -/
abbrev Command := Vector Byte 7

end Sys2Proof
end

