-- ==== Sys2Proof/Config.lean ====
section
/-! DEFINITION. The hardwired constants of the protocol (00_scope.md R5, 10_state.md R16) and the one free value. -/

namespace Sys2Proof.Config

/-- `FRAME_LEN`: bytes of a response frame, capacity of the receive buffer (R5). -/
abbrev frameLen : Nat := 32

/-- `HDR1`: frame byte 0 (R5, R16). -/
abbrev hdr1 : Byte := 0xB1#8

/-- `HDR2`: frame byte 1 (R5, R16). -/
abbrev hdr2 : Byte := 0xB7#8

/-- `CSUM_POS`: offset of the response checksum byte (R5). -/
abbrev csumPos : Nat := 31

/-- `CSUM_LEN`: how many bytes, from offset 0, the response checksum covers (R5). -/
abbrev csumLen : Nat := 31

/-- `CMD_LEN`: bytes of the poll command (R5). -/
abbrev cmdLen : Nat := 7

/-- `CMD_FIXED`: command bytes 0 to 5, the command ROM (R5, R16). -/
def cmdFixed : Vector Byte 6 := #v[0x0A#8, 0x96#8, 0x61#8, 0x54#8, 0x18#8, 0x05#8]

/-- `CMD_SUM_LO`: first offset the command checksum sums (R5). -/
abbrev cmdSumLo : Nat := 2

/-- `CMD_SUM_HI`: last offset the command checksum sums (R5). -/
abbrev cmdSumHi : Nat := 4

/-- `CMD_CSUM_POS`: offset of the command checksum byte (R5). -/
abbrev cmdCsumPos : Nat := 6

/-- `N_FIELDS`: fields of a TelemetryRecord (R5). -/
abbrev nFields : Nat := 14

/-- FREE VALUE: the byte that cell `cell` of the receive buffer holds after its contents became unspecified for the
`epoch`-th time (epoch 0 is power-on, each later one an `RST` step). "buf[0..31] keep or lose their contents:
unspecified" (70_reset_and_hazards.md R110, 10_state.md R18). No body: nothing can be proved about its value.
DESIGN CHOICE, log entry 4. -/
opaque unspecifiedCell (epoch cell : Nat) : Byte

end Sys2Proof.Config
end

