-- ==== Sys2Proof/Machine/Operands.lean ====
section
/-! DEFINITION. Operand assembly (30_encoding.md R34, 00_scope.md R6), frames as bit vectors (R36), and the two
checksums (40_frame_assembler.md R40, 42_command_encoder.md R81). -/

namespace Sys2Proof.Machine

/-! ### Little-endian numbers -/

/-- The number a byte sequence denotes, lowest offset least significant (20_memory.md R22). -/
def leNat : List Byte → Nat
  | [] => 0
  | b :: bs => b.toNat + 256 * leNat bs

/-- `MemRead(a, n)` on a frame: the `n` bytes from offset `a` as one little-endian number (R22). -/
def memRead (f : Frame) (a n : Nat) : Nat :=
  leNat ((f.toList.drop a).take n)

/-- `u16le(a, b) = F[a] + 256*F[b]`, 16 bits, zero-extended (R6, R34). -/
def u16le (f : Frame) (a b : Fin 32) : BitVec 16 :=
  (f.get a).setWidth 16 + 256#16 * (f.get b).setWidth 16

/-- `u24le(a, b, c)`, 24 bits, zero-extended (R6, R34). -/
def u24le (f : Frame) (a b c : Fin 32) : BitVec 24 :=
  (f.get a).setWidth 24 + 256#24 * (f.get b).setWidth 24 + 65536#24 * (f.get c).setWidth 24

/-- `u32le(a, b, c, d)`, 32 bits, zero-extended (R6, R34). -/
def u32le (f : Frame) (a b c d : Fin 32) : BitVec 32 :=
  (f.get a).setWidth 32 + 256#32 * (f.get b).setWidth 32 + 65536#32 * (f.get c).setWidth 32
    + 16777216#32 * (f.get d).setWidth 32

/-- "raw byte" at offset `a` (R6, R34). -/
def rawByte (f : Frame) (a : Fin 32) : Byte := f.get a

/-! ### Byte sequences as bit vectors (R36) -/

/-- `Fv`: byte `F[i]` in bits `8i+7 : 8i` (R36). -/
def frameBits (f : Frame) : BitVec 256 := BitVec.ofNat 256 (leNat f.toList)

/-- The frame whose byte `i` is bits `8i+7 : 8i` of `v` (R36). -/
def frameOfBits (v : BitVec 256) : Frame := Vector.ofFn fun i => v.extractLsb' (8 * i.val) 8

/-- `Cv`: byte `C[i]` in bits `8i+7 : 8i` (R36). -/
def commandBits (c : Command) : BitVec 56 := BitVec.ofNat 56 (leNat c.toList)

/-! ### The response checksum -/

/-- The running exclusive-OR of a byte sequence, starting from 0 (R40). -/
def xorBytes (l : List Byte) : Byte := l.foldl (fun x y => x ^^^ y) 0#8

/-- `xor31(F[0..30])` of 32 cells (R40). -/
def xor31 (f : Frame) : Byte := xorBytes (f.toList.take Config.csumLen)

/-- The two magic bytes stand at offsets 0 and 1 (R31). -/
def hasHeader (f : Frame) : Bool := f.get 0 == Config.hdr1 && f.get 1 == Config.hdr2

/-- The RawFrame invariant: header, and byte 31 equal to the exclusive-OR of bytes 0 to 30 (R31, R52). -/
def isRawFrame (f : Frame) : Bool := hasHeader f && f.get 31 == xor31 f

/-- The first 31 bytes of the frame with payload `p`. -/
def frameHead (p : Payload) : Vector Byte 31 := (#v[Config.hdr1, Config.hdr2] ++ p).cast (by decide)

/-- The RawFrame with payload `p`: `B1 B7 p2 ... p30 cc` (R31, R38 `FRAME`). -/
def frameOfPayload (p : Payload) : Frame := (frameHead p).push (xorBytes (frameHead p).toList)

/-- The same with the checksum byte complemented (R38 `BADFRAME`). -/
def badFrameOfPayload (p : Payload) : Frame := (frameHead p).push (xorBytes (frameHead p).toList ^^^ 0xFF#8)

/-- The free bytes of a frame, offsets 2 to 30 (R31). -/
def payloadOf (f : Frame) : Payload := Vector.ofFn fun i => f.get ⟨i.val + 2, by omega⟩

/-! ### The command and its checksum -/

/-- `sum8(S, lo, hi)`: the sum modulo 256 of the bytes at offsets `lo` to `hi` inclusive (R81). -/
def sum8 (l : List Byte) (lo hi : Nat) : Byte := ((l.drop lo).take (hi + 1 - lo)).foldl (fun x y => x + y) 0#8

/-- The PollCommand: `CMD_FIXED ++ [sum8(CMD_FIXED, 2, 4)]` (R82). -/
def pollCommand : Command :=
  Config.cmdFixed.push (sum8 Config.cmdFixed.toList Config.cmdSumLo Config.cmdSumHi)

end Sys2Proof.Machine
end

