-- ==== Sys2Proof/Syntax.lean ====
section
/-! DEFINITION. The operations of the core, one constructor per row of spec/opcode_table.json, and the code words. -/

namespace Sys2Proof

/-- The operations (30_encoding.md R33, 41_telemetry_decoder.md R60 to R74) and the two data formats (R31, R32).
Operands are what the row's word leaves free. -/
inductive Instr where
  /-- `RST` (R110). -/
  | rst
  /-- `POLL` (R83). -/
  | poll
  /-- `RX_SYNC_HIT` (R43): the byte is `HDR1`. -/
  | rxSyncHit
  /-- `RX_SYNC_MISS` (R42), the byte `b`. -/
  | rxSyncMiss (b : Byte)
  /-- `RX_HDR2_HIT` (R45): the byte is `HDR2`. -/
  | rxHdr2Hit
  /-- `RX_HDR2_MISS` (R44), the byte `b`. -/
  | rxHdr2Miss (b : Byte)
  /-- `RX_LAST_OK` (R47), the byte `b`. -/
  | rxLastOk (b : Byte)
  /-- `RX_LAST_BAD` (R48), the byte `b`. -/
  | rxLastBad (b : Byte)
  /-- `RX_FILL` (R46): the cursor before the step, as the operation word carries it, and the byte. -/
  | rxFill (c : BitVec 6) (b : Byte)
  /-- `DECODE` (R60). -/
  | decode (f : Frame)
  /-- `FLD_solarVoltage1` (R61). -/
  | fldSolarVoltage1 (f : Frame)
  /-- `FLD_solarCurrent` (R62). -/
  | fldSolarCurrent (f : Frame)
  /-- `FLD_solarVoltage2` (R63). -/
  | fldSolarVoltage2 (f : Frame)
  /-- `FLD_lineVoltage` (R64). -/
  | fldLineVoltage (f : Frame)
  /-- `FLD_lineCurrent` (R65). -/
  | fldLineCurrent (f : Frame)
  /-- `FLD_temperature` (R66). -/
  | fldTemperature (f : Frame)
  /-- `FLD_energyToday` (R67). -/
  | fldEnergyToday (f : Frame)
  /-- `FLD_energyTotal` (R68). -/
  | fldEnergyTotal (f : Frame)
  /-- `FLD_faultCode` (R69). -/
  | fldFaultCode (f : Frame)
  /-- `FLD_runStatus` (R70). -/
  | fldRunStatus (f : Frame)
  /-- `FLD_frequency` (R71). -/
  | fldFrequency (f : Frame)
  /-- `FLD_operationTime` (R72). -/
  | fldOperationTime (f : Frame)
  /-- `FLD_powerFactor` (R73). -/
  | fldPowerFactor (f : Frame)
  /-- `FLD_dspVersion` (R74). -/
  | fldDspVersion (f : Frame)
  /-- `FMT_RESP32` (R31): the format of a response frame; the operand is its 29 free bytes. -/
  | fmtResp32 (p : Payload)
  /-- `FMT_CMD7` (R32): the format of the poll command, all of it fixed. -/
  | fmtCmd7
  deriving DecidableEq, Repr

/-- A code word in one of the three formats (30_encoding.md R30). The spec gives the 14 `FLD_*` operations and
`FMT_RESP32` no bits that tell them from `DECODE`, so the 256-bit form carries the number of its reader beside the
frame: 0 `DECODE`, 1 to 14 the field operations in R60's order, 15 `FMT_RESP32`. DESIGN CHOICE, notation only
(log entry 9). -/
inductive CodeWord where
  /-- `OPW`, 16 bits (R33). -/
  | opw (w : BitVec 16)
  /-- `RESP32`, 256 bits (R31, R36), and the number of the operation that reads it. -/
  | resp32 (role : BitVec 8) (v : BitVec 256)
  /-- `CMD7`, 56 bits (R32). -/
  | cmd7 (v : BitVec 56)
  deriving DecidableEq, Repr

/-- Why a code word is refused (30_encoding.md R37). -/
inductive Reject where
  /-- An operation word with `ev = 3`: "never produced" (R33, R37). -/
  | reservedEvent
  /-- An operation word with `ev = 0` and `cur` in 32..63: "unreachable" (R37). -/
  | cursorUnreachable
  /-- A `DECODE` or `FMT_RESP32` word whose first two bytes are not `HDR1`, `HDR2` (R31). -/
  | headerMismatch
  /-- A `FMT_RESP32` word whose byte 31 is not the exclusive-OR of bytes 0 to 30 (R31). -/
  | checksumMismatch
  /-- A `CMD7` word that is not the one poll command (R32). -/
  | notPollCommand
  /-- A 256-bit word with a reader number above 15 (log entry 9). -/
  | unknownRole
  deriving DecidableEq, Repr

end Sys2Proof
end

