-- ==== Sys2Proof/WellFormed.lean ====
section
/-! DEFINITION. Which instruction terms stand for a row of the operation map (30_encoding.md R31, R33). -/

namespace Sys2Proof

open Sys2Proof.Machine

/-- The operands are ones the row's word admits: a miss is not the byte of its hit, a fill's cursor is 2..30 (R33),
a `DECODE` word carries the two header bytes (the row's match and mask). -/
def Instr.wf : Instr → Bool
  | .rst => true
  | .poll => true
  | .rxSyncHit => true
  | .rxSyncMiss b => b != Config.hdr1
  | .rxHdr2Hit => true
  | .rxHdr2Miss b => b != Config.hdr2
  | .rxLastOk _ => true
  | .rxLastBad _ => true
  | .rxFill c _ => decide (2 ≤ c.toNat ∧ c.toNat ≤ 30)
  | .decode f => hasHeader f
  | .fldSolarVoltage1 _ => true
  | .fldSolarCurrent _ => true
  | .fldSolarVoltage2 _ => true
  | .fldLineVoltage _ => true
  | .fldLineCurrent _ => true
  | .fldTemperature _ => true
  | .fldEnergyToday _ => true
  | .fldEnergyTotal _ => true
  | .fldFaultCode _ => true
  | .fldRunStatus _ => true
  | .fldFrequency _ => true
  | .fldOperationTime _ => true
  | .fldPowerFactor _ => true
  | .fldDspVersion _ => true
  | .fmtResp32 _ => true
  | .fmtCmd7 => true

/-- The row's extra condition on the buffer (30_encoding.md R33 rows 7 and 8): `check` is `xor31(buf[0..30])`. -/
def Instr.condHolds (check : Byte) : Instr → Bool
  | .rst => true
  | .poll => true
  | .rxSyncHit => true
  | .rxSyncMiss _ => true
  | .rxHdr2Hit => true
  | .rxHdr2Miss _ => true
  | .rxLastOk b => b == check
  | .rxLastBad b => b != check
  | .rxFill _ _ => true
  | .decode _ => true
  | .fldSolarVoltage1 _ => true
  | .fldSolarCurrent _ => true
  | .fldSolarVoltage2 _ => true
  | .fldLineVoltage _ => true
  | .fldLineCurrent _ => true
  | .fldTemperature _ => true
  | .fldEnergyToday _ => true
  | .fldEnergyTotal _ => true
  | .fldFaultCode _ => true
  | .fldRunStatus _ => true
  | .fldFrequency _ => true
  | .fldOperationTime _ => true
  | .fldPowerFactor _ => true
  | .fldDspVersion _ => true
  | .fmtResp32 _ => true
  | .fmtCmd7 => true

end Sys2Proof
end

