-- ==== Sys2Proof/Decode.lean ====
section
/-! DEFINITION. The decoder, total on every code word and rejecting by name, and the encoder (30_encoding.md R30 to
R37). -/

namespace Sys2Proof

open Sys2Proof.Machine

/-! ### Decoding -/

/-- The operation of an operation word: the FIRST row of R33's table whose `(OPW & mask) = match` and whose extra
condition holds. `check` is `xor31(buf[0..30])`, which rows 7 and 8 look at. -/
def decodeOpw (w : BitVec 16) (check : Byte) : Except Reject Instr :=
  let b := w.extractLsb' 0 8
  if w &&& 0xC000#16 = 0x8000#16 then .ok .rst
  else if w &&& 0xC000#16 = 0x4000#16 then .ok .poll
  else if w &&& 0xFFFF#16 = 0x00B1#16 then .ok .rxSyncHit
  else if w &&& 0xFF00#16 = 0x0000#16 then .ok (.rxSyncMiss b)
  else if w &&& 0xFFFF#16 = 0x01B7#16 then .ok .rxHdr2Hit
  else if w &&& 0xFF00#16 = 0x0100#16 then .ok (.rxHdr2Miss b)
  else if w &&& 0xFF00#16 = 0x1F00#16 ∧ b = check then .ok (.rxLastOk b)
  else if w &&& 0xFF00#16 = 0x1F00#16 then .ok (.rxLastBad b)
  else if w &&& 0xE000#16 = 0x0000#16 then .ok (.rxFill (w.extractLsb' 8 6) b)
  else if w &&& 0xC000#16 = 0xC000#16 then .error .reservedEvent
  else .error .cursorUnreachable

/-- What reads a 256-bit frame value. `DECODE` asks for the table row's match and mask (the two header bytes): its
checksum condition is "guaranteed by RX_LAST_OK, the only caller", and its formulas are total on any 32 bytes
(41_telemetry_decoder.md R60; log entry 9). `FMT_RESP32` is the whole RawFrame invariant (R31). The field rows have
mask 0. -/
def decodeResp32 (role : BitVec 8) (v : BitVec 256) : Except Reject Instr :=
  let f := frameOfBits v
  match role.toNat with
  | 0 => if hasHeader f then .ok (.decode f) else .error .headerMismatch
  | 1 => .ok (.fldSolarVoltage1 f)
  | 2 => .ok (.fldSolarCurrent f)
  | 3 => .ok (.fldSolarVoltage2 f)
  | 4 => .ok (.fldLineVoltage f)
  | 5 => .ok (.fldLineCurrent f)
  | 6 => .ok (.fldTemperature f)
  | 7 => .ok (.fldEnergyToday f)
  | 8 => .ok (.fldEnergyTotal f)
  | 9 => .ok (.fldFaultCode f)
  | 10 => .ok (.fldRunStatus f)
  | 11 => .ok (.fldFrequency f)
  | 12 => .ok (.fldOperationTime f)
  | 13 => .ok (.fldPowerFactor f)
  | 14 => .ok (.fldDspVersion f)
  | 15 =>
    if hasHeader f then
      if f.get 31 = xor31 f then .ok (.fmtResp32 (payloadOf f)) else .error .checksumMismatch
    else .error .headerMismatch
  | _ => .error .unknownRole

/-- The one 56-bit command (R32): every bit is fixed. -/
def decodeCmd7 (v : BitVec 56) : Except Reject Instr :=
  if v = 0xCD05185461960A#56 then .ok .fmtCmd7 else .error .notPollCommand

/-- The decoder. -/
def decode (w : CodeWord) (check : Byte) : Except Reject Instr :=
  match w with
  | .opw w => decodeOpw w check
  | .resp32 role v => decodeResp32 role v
  | .cmd7 v => decodeCmd7 v

/-! ### Encoding -/

/-- The operation word `{ev[1:0], cur[5:0], b[7:0]}` (R33). -/
def packOpw (ev : BitVec 2) (cur : BitVec 6) (b : Byte) : BitVec 16 := ev ++ cur ++ b

/-- The code word of an instruction. `POLL` and `RST` ignore the `cur` and `b` bits of theirs; the encoder writes
zeros there (R33). -/
def encode : Instr → CodeWord
  | .rst => .opw (packOpw 2#2 0#6 0#8)
  | .poll => .opw (packOpw 1#2 0#6 0#8)
  | .rxSyncHit => .opw (packOpw 0#2 0#6 Config.hdr1)
  | .rxSyncMiss b => .opw (packOpw 0#2 0#6 b)
  | .rxHdr2Hit => .opw (packOpw 0#2 1#6 Config.hdr2)
  | .rxHdr2Miss b => .opw (packOpw 0#2 1#6 b)
  | .rxLastOk b => .opw (packOpw 0#2 31#6 b)
  | .rxLastBad b => .opw (packOpw 0#2 31#6 b)
  | .rxFill c b => .opw (packOpw 0#2 c b)
  | .decode f => .resp32 0#8 (frameBits f)
  | .fldSolarVoltage1 f => .resp32 1#8 (frameBits f)
  | .fldSolarCurrent f => .resp32 2#8 (frameBits f)
  | .fldSolarVoltage2 f => .resp32 3#8 (frameBits f)
  | .fldLineVoltage f => .resp32 4#8 (frameBits f)
  | .fldLineCurrent f => .resp32 5#8 (frameBits f)
  | .fldTemperature f => .resp32 6#8 (frameBits f)
  | .fldEnergyToday f => .resp32 7#8 (frameBits f)
  | .fldEnergyTotal f => .resp32 8#8 (frameBits f)
  | .fldFaultCode f => .resp32 9#8 (frameBits f)
  | .fldRunStatus f => .resp32 10#8 (frameBits f)
  | .fldFrequency f => .resp32 11#8 (frameBits f)
  | .fldOperationTime f => .resp32 12#8 (frameBits f)
  | .fldPowerFactor f => .resp32 13#8 (frameBits f)
  | .fldDspVersion f => .resp32 14#8 (frameBits f)
  | .fmtResp32 p => .resp32 15#8 (frameBits (frameOfPayload p))
  | .fmtCmd7 => .cmd7 (commandBits pollCommand)

/-! ### The host's numbering -/

/-- The first 31 bytes of a frame in progress whose exclusive-OR is 0: `B1 B7 06 00 ... 00`. `State.withFetchWord`
places them when an operation word has `cur = 31`, so that rows 7 and 8 of R33 are decided (log entry 8). -/
def canonicalHead : List Byte := [0xB1#8, 0xB7#8, 0x06#8] ++ List.replicate 28 0#8

/-- The instruction read from a word numbered as spec/opcode_table.json numbers it: 16 bits an operation word, 56 the
command, 256 a frame (reader number 0), 264 a frame and its reader number in the top byte. -/
def decodeTableWord (nbits w : Nat) : Option Instr :=
  match nbits with
  | 16 => (decode (.opw (BitVec.ofNat 16 w)) (xorBytes canonicalHead)).toOption
  | 56 => (decode (.cmd7 (BitVec.ofNat 56 w)) 0#8).toOption
  | 256 => (decode (.resp32 0#8 (BitVec.ofNat 256 w)) 0#8).toOption
  | 264 => (decode (.resp32 (BitVec.ofNat 8 (w / 2 ^ 256)) (BitVec.ofNat 256 w)) 0#8).toOption
  | _ => none

end Sys2Proof
end

