-- ==== Sys2Proof/Machine/State.lean ====
section
/-! DEFINITION. The state of the core as plain data (10_state.md), the events it reacts to and the output record of a
step (00_scope.md R2, R4), and the ways a step can stop. -/

namespace Sys2Proof.Machine

/-- The three input events (00_scope.md R2). -/
inductive Event where
  /-- `RST`, from the surroundings (70_reset_and_hazards.md R110). -/
  | rst
  /-- `RX(b)`: the core has pulled the next byte from the inbound byte source. -/
  | rx (b : Byte)
  /-- `POLL`: the poll trigger fired. -/
  | poll
  deriving DecidableEq, Repr

/-- The four diagnostic events (60_exceptions.md R90). -/
inductive Diag where
  /-- Header-1 mismatch (R91). -/
  | syncError
  /-- Header-2 mismatch (R92). -/
  | headerError
  /-- Checksum mismatch (R93). -/
  | checksumError
  /-- Successful frame validation (R94). -/
  | frameValid
  deriving DecidableEq, Repr

/-- One operation on the outbound byte sink: "a 'write N bytes' operation plus an explicit flush" (20_memory.md R28). -/
inductive SinkOp where
  /-- Write the 7 bytes, offset 0 first. -/
  | write (c : Command)
  /-- The flush. -/
  | flush
  deriving DecidableEq, Repr

/-- A TelemetryRecord: the 14 `raw` values, in their natural widths (41_telemetry_decoder.md R60, R77). -/
structure TelemetryRecord where
  solarVoltage1 : BitVec 16
  solarCurrent : BitVec 16
  solarVoltage2 : BitVec 16
  lineVoltage : BitVec 16
  lineCurrent : BitVec 16
  temperature : BitVec 16
  energyToday : BitVec 16
  energyTotal : BitVec 24
  faultCode : BitVec 32
  runStatus : BitVec 8
  frequency : BitVec 16
  operationTime : BitVec 16
  powerFactor : BitVec 8
  dspVersion : BitVec 8
  deriving DecidableEq, Repr

/-- The telemetry part of the output record, one optional value per field: a field operation (R61 to R74) fills one,
`DECODE` fills all 14 (R60). All absent: the step has no `telemetry_out` (log entry 10). -/
structure TelemetryPort where
  solarVoltage1 : Option (BitVec 16) := none
  solarCurrent : Option (BitVec 16) := none
  solarVoltage2 : Option (BitVec 16) := none
  lineVoltage : Option (BitVec 16) := none
  lineCurrent : Option (BitVec 16) := none
  temperature : Option (BitVec 16) := none
  energyToday : Option (BitVec 16) := none
  energyTotal : Option (BitVec 24) := none
  faultCode : Option (BitVec 32) := none
  runStatus : Option (BitVec 8) := none
  frequency : Option (BitVec 16) := none
  operationTime : Option (BitVec 16) := none
  powerFactor : Option (BitVec 8) := none
  dspVersion : Option (BitVec 8) := none
  deriving DecidableEq, Repr

/-- The output record of a step; a part that no rule mentions is absent (00_scope.md R4). -/
structure Output where
  /-- `diag`: at most one diagnostic event. -/
  diag : Option Diag := none
  /-- `frame_out`. -/
  frame : Option Frame := none
  /-- `telemetry_out`. -/
  telemetry : TelemetryPort := {}
  /-- `tx_out`: what is done to the outbound byte sink, in order. -/
  tx : List SinkOp := []
  deriving DecidableEq, Repr

/-- The state. `cur` and `buf` are the whole mutable state of the core (10_state.md R10, R12, R17); the other three
fields are the model's own (log entries 1, 2, 4). -/
structure State where
  /-- The fill cursor, 6 bits (R12, R13). -/
  cur : BitVec 6
  /-- The receive buffer, 32 cells of 8 bits (R10). -/
  buf : Vector Byte 32
  /-- The events not yet stepped, oldest first: what the transport, the scheduler and the surroundings will deliver. -/
  inputs : List Event
  /-- The output record of the most recent step. No rule reads it. -/
  out : Output
  /-- How many times the buffer's contents have become unspecified. -/
  freeIdx : Nat
  deriving DecidableEq, Repr

/-- There is no fault: "There are no fatal error conditions in this core" (60_exceptions.md R98), "the assembler never
halts" (40_frame_assembler.md R49). -/
inductive Fault
  deriving DecidableEq, Repr

/-- Why a step is refused. -/
inductive Refusal where
  /-- `exec` has no meaning for the instruction yet. Raised by no arm of this model. Safe. -/
  | notModelled (mnemonic : String)
  /-- Raised by `step` for a received byte, whose operation word then decodes to no operation, and by the meanings of
  `RST` and `POLL`: a step from a cursor in 32..63, which no run reaches (30_encoding.md R37: "a model either makes it
  unrepresentable or refuses it"; 92_eei_decisions.md D27). Safe (log entry 6). -/
  | undecodable (r : Reject)
  /-- Raised by the meaning of an `RX_*` operation: the state is not one in which R33 selects that operation, so the
  spec gives it no effect there. `step` never gets here. Safe (log entry 7). -/
  | notSelected
  deriving DecidableEq, Repr

/-- The buffer's contents after they became unspecified for the `n`-th time: free values (R18, R110; log entry 4). -/
def unspecifiedBuf (n : Nat) : Vector Byte 32 := Vector.ofFn fun i => Config.unspecifiedCell n i.val

/-- The machine right after reset (10_state.md R18): cursor 0, buffer unspecified, no outputs; no event is pending
(log entries 1, 4). -/
def State.reset : State :=
  { cur := 0#6
    buf := unspecifiedBuf 0
    inputs := []
    out := { }
    freeIdx := 1 }

end Sys2Proof.Machine
end

