-- ==== Sys2Proof/Machine/Flags.lean ====
section
/-! DEFINITION. There are no flags (10_state.md R15). What stands in their place, the diagnostic events and their
codes, is here (60_exceptions.md R90). -/

namespace Sys2Proof.Machine

/-- The code of a diagnostic event (R90). -/
def Diag.code : Diag → BitVec 3
  | .syncError => 1
  | .headerError => 2
  | .checksumError => 3
  | .frameValid => 4

/-- The `diag` code of a step: 0 where there is no event (R90). -/
def diagCode : Option Diag → BitVec 3
  | none => 0
  | some d => d.code

/-- The three error conditions; `FrameValid` is a diagnostic, not an error (R90, R94). -/
def Diag.isError : Diag → Bool
  | .syncError => true
  | .headerError => true
  | .checksumError => true
  | .frameValid => false

end Sys2Proof.Machine
end

