-- ==== Sys2Proof/Machine/Ops.lean ====
section
/-! DEFINITION. The shared operations on the state: the append, the cursor, the parts of the output record, the error
conditions, and the selection of the operation of the next step. -/

namespace Sys2Proof.Machine

/-! ### Updates -/

/-- `cur <- c`. -/
def State.setCur (s : State) (c : BitVec 6) : State := { s with cur := c }

/-- `buf[cur] <- b`, the append every `RX` step begins with (40_frame_assembler.md R41). -/
def State.append (s : State) (b : Byte) : State := { s with buf := s.buf.setIfInBounds s.cur.toNat b }

/-- A step starts with an empty output record (00_scope.md R4). -/
def State.beginStep (s : State) : State := { s with out := { } }

/-- `emit diag(E)`. -/
def State.emitDiag (s : State) (d : Diag) : State := { s with out := { s.out with diag := some d } }

/-- `emit frame_out(F)`. -/
def State.emitFrame (s : State) (f : Frame) : State := { s with out := { s.out with frame := some f } }

/-- `emit tx_out(write C; flush)` (42_command_encoder.md R83). -/
def State.emitTx (s : State) (c : Command) : State := { s with out := { s.out with tx := [.write c, .flush] } }

/-- The telemetry part of the output record is replaced. -/
def State.setTelemetry (s : State) (p : TelemetryPort) : State := { s with out := { s.out with telemetry := p } }

/-- The buffer's contents become unspecified (70_reset_and_hazards.md R110): free values (log entry 4). -/
def State.forgetBuf (s : State) : State := { s with buf := unspecifiedBuf s.freeIdx, freeIdx := s.freeIdx + 1 }

/-! ### Error conditions -/

/-- Raising an error condition, "trap entry": the event is put into `diag` and the cursor returns to 0; nothing is
saved and control goes nowhere (60_exceptions.md R96). There is no return operation (R97). -/
def State.raise (s : State) (d : Diag) : State := (s.setCur 0#6).emitDiag d

/-! ### Selection -/

/-- An `RX_*` operation runs where R33 selects it; elsewhere the spec gives it no effect (log entry 7). -/
def whenSelected (c : Prop) [Decidable c] (t : State) : Host.Outcome State Fault Refusal :=
  if c then .next t else .refused .notSelected

/-- A step that looks at no cursor (`RST`, `POLL`) from `s` to `t`: refused where the cursor of `s` is in 32..63, from
where no step has a behaviour (30_encoding.md R37, 92_eei_decisions.md D27, 93_implementation_defined.md U5; log entry
6). -/
def whenReachable (s t : State) : Host.Outcome State Fault Refusal :=
  if s.cur.toNat < 32 then .next t else .refused (.undecodable .cursorUnreachable)

/-- The event kind `ev` of an operation word (30_encoding.md R33). -/
def Event.kind : Event → BitVec 2
  | .rx _ => 0
  | .poll => 1
  | .rst => 2

/-- The byte `b` of an operation word: the incoming byte, 0 for `POLL` and `RST` (R33). -/
def Event.byte : Event → Byte
  | .rx b => b
  | .poll => 0
  | .rst => 0

/-- The operation word of event `e` at cursor `c` (R33). -/
def opwOf (e : Event) (c : BitVec 6) : BitVec 16 := packOpw e.kind c e.byte

/-- What the step for event `e` is: the decoder's answer on the event's operation word (R33). -/
def selectOp (e : Event) (s : State) : Except Reject Instr := decode (.opw (opwOf e s.cur)) (xor31 s.buf)

/-- The oldest pending event is taken: a byte pulled is consumed by exactly one step (00_scope.md R3). -/
def State.popInput (s : State) : State := { s with inputs := s.inputs.tail }

/-- No event: "the state does not change and nothing is output" (R3). -/
def State.idle (s : State) : State := s.beginStep

/-! ### Placing a word for the host -/

/-- Cells 0 to 30 are replaced by the bytes of `l`; cell 31 is kept. -/
def loadHead (buf : Vector Byte 32) (l : List Byte) : Vector Byte 32 :=
  Vector.ofFn fun i => if i.val < 31 then l.getD i.val 0#8 else buf.get i

/-- The state whose next step is the one of operation word `w`: its event is the next to be delivered; for `RX` the
cursor is the word's, and at cursor 31 the cells that rows 7 and 8 of R33 look at are set (log entry 8). -/
def placeOpw (w : BitVec 16) (s : State) : State :=
  let ev := w.extractLsb' 14 2
  let c := w.extractLsb' 8 6
  let b := w.extractLsb' 0 8
  if ev = 0#2 then
    { s with
      cur := c
      buf := if c = 31#6 then loadHead s.buf canonicalHead else s.buf
      inputs := .rx b :: s.inputs }
  else if ev = 1#2 then { s with inputs := .poll :: s.inputs }
  else if ev = 2#2 then { s with inputs := .rst :: s.inputs }
  else { s with inputs := [] }

/-- The state whose next step receives the 32nd byte of the frame `f`, the 31 before it being in the buffer: the step
that runs `DECODE` and its field operations and emits the frame, if the checksum is good (40_frame_assembler.md R47;
log entry 8). -/
def placeFrame (f : Frame) (s : State) : State :=
  { s with cur := 31#6, buf := loadHead s.buf f.toList, inputs := .rx (f.get 31) :: s.inputs }

/-- The state whose next step runs the operation of a word numbered as the opcode table numbers it. -/
def placeWord (nbits w : Nat) (s : State) : State :=
  match nbits with
  | 16 => placeOpw (BitVec.ofNat 16 w) s
  | 56 => if BitVec.ofNat 56 w = commandBits pollCommand then placeOpw 0x4000#16 s else { s with inputs := [] }
  | 256 => placeFrame (frameOfBits (BitVec.ofNat 256 w)) s
  | 264 => placeFrame (frameOfBits (BitVec.ofNat 256 w)) s
  | _ => s

end Sys2Proof.Machine
end

