-- ==== Sys2Proof/Machine/Telemetry.lean ====
section
/-! DEFINITION. The TelemetryDecoder: the 14 field operations and `DECODE` (41_telemetry_decoder.md R60 to R80). -/

namespace Sys2Proof.Machine

/-! ### The field formulas -/

/-- R61. -/
def rawSolarVoltage1 (f : Frame) : BitVec 16 := u16le f 3 4
/-- R62. -/
def rawSolarCurrent (f : Frame) : BitVec 16 := u16le f 5 6
/-- R63. -/
def rawSolarVoltage2 (f : Frame) : BitVec 16 := u16le f 7 8
/-- R64. -/
def rawLineVoltage (f : Frame) : BitVec 16 := u16le f 9 10
/-- R65. -/
def rawLineCurrent (f : Frame) : BitVec 16 := u16le f 11 12
/-- R66; unsigned (R78). -/
def rawTemperature (f : Frame) : BitVec 16 := u16le f 13 14
/-- R67. -/
def rawEnergyToday (f : Frame) : BitVec 16 := u16le f 15 16
/-- R68. -/
def rawEnergyTotal (f : Frame) : BitVec 24 := u24le f 17 18 19
/-- R69; the reserved bits are kept (R76). -/
def rawFaultCode (f : Frame) : BitVec 32 := u32le f 20 21 22 23
/-- R70. -/
def rawRunStatus (f : Frame) : BitVec 8 := rawByte f 24
/-- R71. -/
def rawFrequency (f : Frame) : BitVec 16 := u16le f 25 26
/-- R72. -/
def rawOperationTime (f : Frame) : BitVec 16 := u16le f 27 28
/-- R73. -/
def rawPowerFactor (f : Frame) : BitVec 8 := rawByte f 29
/-- R74. -/
def rawDspVersion (f : Frame) : BitVec 8 := rawByte f 30

/-- `DECODE(F)` as a pure function (R60). -/
def decodeRecord (f : Frame) : TelemetryRecord :=
  { solarVoltage1 := rawSolarVoltage1 f
    solarCurrent := rawSolarCurrent f
    solarVoltage2 := rawSolarVoltage2 f
    lineVoltage := rawLineVoltage f
    lineCurrent := rawLineCurrent f
    temperature := rawTemperature f
    energyToday := rawEnergyToday f
    energyTotal := rawEnergyTotal f
    faultCode := rawFaultCode f
    runStatus := rawRunStatus f
    frequency := rawFrequency f
    operationTime := rawOperationTime f
    powerFactor := rawPowerFactor f
    dspVersion := rawDspVersion f }

/-! ### The telemetry port -/

/-- The record a port holds, once all 14 fields are present ("always fully populated", R60). -/
def TelemetryPort.record (p : TelemetryPort) : Option TelemetryRecord := do
  let solarVoltage1 ← p.solarVoltage1
  let solarCurrent ← p.solarCurrent
  let solarVoltage2 ← p.solarVoltage2
  let lineVoltage ← p.lineVoltage
  let lineCurrent ← p.lineCurrent
  let temperature ← p.temperature
  let energyToday ← p.energyToday
  let energyTotal ← p.energyTotal
  let faultCode ← p.faultCode
  let runStatus ← p.runStatus
  let frequency ← p.frequency
  let operationTime ← p.operationTime
  let powerFactor ← p.powerFactor
  let dspVersion ← p.dspVersion
  return { solarVoltage1, solarCurrent, solarVoltage2, lineVoltage, lineCurrent, temperature, energyToday,
           energyTotal, faultCode, runStatus, frequency, operationTime, powerFactor, dspVersion }

/-- The port that holds the record `r`. -/
def TelemetryRecord.port (r : TelemetryRecord) : TelemetryPort :=
  { solarVoltage1 := some r.solarVoltage1
    solarCurrent := some r.solarCurrent
    solarVoltage2 := some r.solarVoltage2
    lineVoltage := some r.lineVoltage
    lineCurrent := some r.lineCurrent
    temperature := some r.temperature
    energyToday := some r.energyToday
    energyTotal := some r.energyTotal
    faultCode := some r.faultCode
    runStatus := some r.runStatus
    frequency := some r.frequency
    operationTime := some r.operationTime
    powerFactor := some r.powerFactor
    dspVersion := some r.dspVersion }

/-! ### One field is put into the port -/

/-- The assignment of R61. -/
def putSolarVoltage1 (f : Frame) (p : TelemetryPort) : TelemetryPort :=
  { p with solarVoltage1 := some (rawSolarVoltage1 f) }
/-- The assignment of R62. -/
def putSolarCurrent (f : Frame) (p : TelemetryPort) : TelemetryPort :=
  { p with solarCurrent := some (rawSolarCurrent f) }
/-- The assignment of R63. -/
def putSolarVoltage2 (f : Frame) (p : TelemetryPort) : TelemetryPort :=
  { p with solarVoltage2 := some (rawSolarVoltage2 f) }
/-- The assignment of R64. -/
def putLineVoltage (f : Frame) (p : TelemetryPort) : TelemetryPort :=
  { p with lineVoltage := some (rawLineVoltage f) }
/-- The assignment of R65. -/
def putLineCurrent (f : Frame) (p : TelemetryPort) : TelemetryPort :=
  { p with lineCurrent := some (rawLineCurrent f) }
/-- The assignment of R66. -/
def putTemperature (f : Frame) (p : TelemetryPort) : TelemetryPort :=
  { p with temperature := some (rawTemperature f) }
/-- The assignment of R67. -/
def putEnergyToday (f : Frame) (p : TelemetryPort) : TelemetryPort :=
  { p with energyToday := some (rawEnergyToday f) }
/-- The assignment of R68. -/
def putEnergyTotal (f : Frame) (p : TelemetryPort) : TelemetryPort :=
  { p with energyTotal := some (rawEnergyTotal f) }
/-- The assignment of R69. -/
def putFaultCode (f : Frame) (p : TelemetryPort) : TelemetryPort :=
  { p with faultCode := some (rawFaultCode f) }
/-- The assignment of R70. -/
def putRunStatus (f : Frame) (p : TelemetryPort) : TelemetryPort :=
  { p with runStatus := some (rawRunStatus f) }
/-- The assignment of R71. -/
def putFrequency (f : Frame) (p : TelemetryPort) : TelemetryPort :=
  { p with frequency := some (rawFrequency f) }
/-- The assignment of R72. -/
def putOperationTime (f : Frame) (p : TelemetryPort) : TelemetryPort :=
  { p with operationTime := some (rawOperationTime f) }
/-- The assignment of R73. -/
def putPowerFactor (f : Frame) (p : TelemetryPort) : TelemetryPort :=
  { p with powerFactor := some (rawPowerFactor f) }
/-- The assignment of R74. -/
def putDspVersion (f : Frame) (p : TelemetryPort) : TelemetryPort :=
  { p with dspVersion := some (rawDspVersion f) }

/-- The telemetry port after `DECODE(F)`: a fresh record, then the 14 assignments in R60's order. -/
def decodePort (f : Frame) : TelemetryPort :=
  let p : TelemetryPort := { }
  let p := putSolarVoltage1 f p
  let p := putSolarCurrent f p
  let p := putSolarVoltage2 f p
  let p := putLineVoltage f p
  let p := putLineCurrent f p
  let p := putTemperature f p
  let p := putEnergyToday f p
  let p := putEnergyTotal f p
  let p := putFaultCode f p
  let p := putRunStatus f p
  let p := putFrequency f p
  let p := putOperationTime f p
  let p := putPowerFactor f p
  putDspVersion f p

/-- `emit telemetry_out(DECODE(F))` (R47, R60). -/
def emitDecode (f : Frame) (s : State) : State := s.setTelemetry (decodePort f)

/-! ### The meanings. They run inside the step of `RX_LAST_OK`, so they start no step of their own (R60). -/

/-- `DECODE` (R60). -/
def execDecode (f : Frame) (s : State) : Host.Outcome State Fault Refusal := .next (emitDecode f s)
/-- `FLD_solarVoltage1` (R61). -/
def execFldSolarVoltage1 (f : Frame) (s : State) : Host.Outcome State Fault Refusal :=
  .next (s.setTelemetry (putSolarVoltage1 f s.out.telemetry))
/-- `FLD_solarCurrent` (R62). -/
def execFldSolarCurrent (f : Frame) (s : State) : Host.Outcome State Fault Refusal :=
  .next (s.setTelemetry (putSolarCurrent f s.out.telemetry))
/-- `FLD_solarVoltage2` (R63). -/
def execFldSolarVoltage2 (f : Frame) (s : State) : Host.Outcome State Fault Refusal :=
  .next (s.setTelemetry (putSolarVoltage2 f s.out.telemetry))
/-- `FLD_lineVoltage` (R64). -/
def execFldLineVoltage (f : Frame) (s : State) : Host.Outcome State Fault Refusal :=
  .next (s.setTelemetry (putLineVoltage f s.out.telemetry))
/-- `FLD_lineCurrent` (R65). -/
def execFldLineCurrent (f : Frame) (s : State) : Host.Outcome State Fault Refusal :=
  .next (s.setTelemetry (putLineCurrent f s.out.telemetry))
/-- `FLD_temperature` (R66). -/
def execFldTemperature (f : Frame) (s : State) : Host.Outcome State Fault Refusal :=
  .next (s.setTelemetry (putTemperature f s.out.telemetry))
/-- `FLD_energyToday` (R67). -/
def execFldEnergyToday (f : Frame) (s : State) : Host.Outcome State Fault Refusal :=
  .next (s.setTelemetry (putEnergyToday f s.out.telemetry))
/-- `FLD_energyTotal` (R68). -/
def execFldEnergyTotal (f : Frame) (s : State) : Host.Outcome State Fault Refusal :=
  .next (s.setTelemetry (putEnergyTotal f s.out.telemetry))
/-- `FLD_faultCode` (R69). -/
def execFldFaultCode (f : Frame) (s : State) : Host.Outcome State Fault Refusal :=
  .next (s.setTelemetry (putFaultCode f s.out.telemetry))
/-- `FLD_runStatus` (R70). -/
def execFldRunStatus (f : Frame) (s : State) : Host.Outcome State Fault Refusal :=
  .next (s.setTelemetry (putRunStatus f s.out.telemetry))
/-- `FLD_frequency` (R71). -/
def execFldFrequency (f : Frame) (s : State) : Host.Outcome State Fault Refusal :=
  .next (s.setTelemetry (putFrequency f s.out.telemetry))
/-- `FLD_operationTime` (R72). -/
def execFldOperationTime (f : Frame) (s : State) : Host.Outcome State Fault Refusal :=
  .next (s.setTelemetry (putOperationTime f s.out.telemetry))
/-- `FLD_powerFactor` (R73). -/
def execFldPowerFactor (f : Frame) (s : State) : Host.Outcome State Fault Refusal :=
  .next (s.setTelemetry (putPowerFactor f s.out.telemetry))
/-- `FLD_dspVersion` (R74). -/
def execFldDspVersion (f : Frame) (s : State) : Host.Outcome State Fault Refusal :=
  .next (s.setTelemetry (putDspVersion f s.out.telemetry))

end Sys2Proof.Machine
end

