-- ==== Sys2Proof/Machine/Assembler.lean ====
section
/-! DEFINITION. The FrameAssembler: the seven `RX_*` operations (40_frame_assembler.md R41 to R48). Each begins with the
append of R41, the two misses too, where the write is unobservable (log entry 5). -/

namespace Sys2Proof.Machine

/-- The common part of every `RX` step (R41). -/
def rxCommon (b : Byte) (s : State) : State := s.beginStep.append b

/-- `RX_SYNC_MISS` (R42). -/
def execRxSyncMiss (b : Byte) (s : State) : Host.Outcome State Fault Refusal :=
  whenSelected (s.cur = 0#6 ∧ b ≠ Config.hdr1) ((rxCommon b s).raise .syncError)

/-- `RX_SYNC_HIT` (R43). -/
def execRxSyncHit (s : State) : Host.Outcome State Fault Refusal :=
  whenSelected (s.cur = 0#6) ((rxCommon Config.hdr1 s).setCur 1#6)

/-- `RX_HDR2_MISS` (R44): the mismatching byte is not re-examined. -/
def execRxHdr2Miss (b : Byte) (s : State) : Host.Outcome State Fault Refusal :=
  whenSelected (s.cur = 1#6 ∧ b ≠ Config.hdr2) ((rxCommon b s).raise .headerError)

/-- `RX_HDR2_HIT` (R45). -/
def execRxHdr2Hit (s : State) : Host.Outcome State Fault Refusal :=
  whenSelected (s.cur = 1#6) ((rxCommon Config.hdr2 s).setCur 2#6)

/-- `RX_FILL` (R46), at the cursor its operation word carries. -/
def execRxFill (c : BitVec 6) (b : Byte) (s : State) : Host.Outcome State Fault Refusal :=
  whenSelected (s.cur = c ∧ 2 ≤ c.toNat ∧ c.toNat ≤ 30) ((rxCommon b s).setCur (s.cur + 1#6))

/-- What `RX_LAST_OK` does with the completed buffer: `cur <- 0`, then the three outputs (R47). -/
def emitCompleted (s : State) : State :=
  emitDecode s.buf (((s.setCur 0#6).emitFrame s.buf).emitDiag .frameValid)

/-- `RX_LAST_OK` (R47): the emitted frame is a copy of the 32 cells after the append. -/
def execRxLastOk (b : Byte) (s : State) : Host.Outcome State Fault Refusal :=
  whenSelected (s.cur = 31#6 ∧ b = xor31 s.buf) (emitCompleted (rxCommon b s))

/-- `RX_LAST_BAD` (R48). -/
def execRxLastBad (b : Byte) (s : State) : Host.Outcome State Fault Refusal :=
  whenSelected (s.cur = 31#6 ∧ b ≠ xor31 s.buf) ((rxCommon b s).raise .checksumError)

end Sys2Proof.Machine
end

