-- ==== Sys2Proof/Machine/Encoder.lean ====
section
/-! DEFINITION. The CommandEncoder: `POLL` (42_command_encoder.md R83). -/

namespace Sys2Proof.Machine

/-- `POLL`: the 7 bytes of the PollCommand in offset order, then one flush; `buf` and `cur` are not touched (R83). -/
def execPoll (s : State) : Host.Outcome State Fault Refusal :=
  whenReachable s (s.beginStep.emitTx pollCommand)

end Sys2Proof.Machine
end

