-- ==== Sys2Proof/Machine/Formats.lean ====
section
/-! DEFINITION. The two data formats of the opcode table (30_encoding.md R31, R32). The table calls them "data format,
not an operation"; the model gives each the effect of the `emit` primitive by which a step puts a value of that format
on its interface (00_scope.md section 6). DESIGN CHOICE (log entry 11). -/

namespace Sys2Proof.Machine

/-- `FMT_RESP32` (R31): the RawFrame with payload `p` is put on `frame_out`. -/
def execFmtResp32 (p : Payload) (s : State) : Host.Outcome State Fault Refusal :=
  .next (s.emitFrame (frameOfPayload p))

/-- `FMT_CMD7` (R32): the command is put on `tx_out`. -/
def execFmtCmd7 (s : State) : Host.Outcome State Fault Refusal :=
  .next (s.emitTx pollCommand)

end Sys2Proof.Machine
end

