-- ==== Sys2Proof/Machine/System.lean ====
section
/-! DEFINITION. `RST` (70_reset_and_hazards.md R110, R111). -/

namespace Sys2Proof.Machine

/-- `RST`: cursor 0, the buffer's contents unspecified, no output of any kind; the pending events are not drained
(R110). -/
def execRst (s : State) : Host.Outcome State Fault Refusal :=
  whenReachable s ((s.beginStep.setCur 0#6).forgetBuf)

end Sys2Proof.Machine
end

