-- ==== Sys2Proof/Machine/Dispatch.lean ====
section
/-! DEFINITION. The dispatch: one arm per operation (30_encoding.md R33, R37). -/

namespace Sys2Proof.Machine

def exec (i : Instr) (s : State) : Host.Outcome State Fault Refusal :=
  match i with
  | .rst => Sys2Proof.Machine.execRst s
  | .poll => Sys2Proof.Machine.execPoll s
  | .rxSyncHit => Sys2Proof.Machine.execRxSyncHit s
  | .rxSyncMiss b => Sys2Proof.Machine.execRxSyncMiss b s
  | .rxHdr2Hit => Sys2Proof.Machine.execRxHdr2Hit s
  | .rxHdr2Miss b => Sys2Proof.Machine.execRxHdr2Miss b s
  | .rxLastOk b => Sys2Proof.Machine.execRxLastOk b s
  | .rxLastBad b => Sys2Proof.Machine.execRxLastBad b s
  | .rxFill c b => Sys2Proof.Machine.execRxFill c b s
  | .decode f => Sys2Proof.Machine.execDecode f s
  | .fldSolarVoltage1 f => Sys2Proof.Machine.execFldSolarVoltage1 f s
  | .fldSolarCurrent f => Sys2Proof.Machine.execFldSolarCurrent f s
  | .fldSolarVoltage2 f => Sys2Proof.Machine.execFldSolarVoltage2 f s
  | .fldLineVoltage f => Sys2Proof.Machine.execFldLineVoltage f s
  | .fldLineCurrent f => Sys2Proof.Machine.execFldLineCurrent f s
  | .fldTemperature f => Sys2Proof.Machine.execFldTemperature f s
  | .fldEnergyToday f => Sys2Proof.Machine.execFldEnergyToday f s
  | .fldEnergyTotal f => Sys2Proof.Machine.execFldEnergyTotal f s
  | .fldFaultCode f => Sys2Proof.Machine.execFldFaultCode f s
  | .fldRunStatus f => Sys2Proof.Machine.execFldRunStatus f s
  | .fldFrequency f => Sys2Proof.Machine.execFldFrequency f s
  | .fldOperationTime f => Sys2Proof.Machine.execFldOperationTime f s
  | .fldPowerFactor f => Sys2Proof.Machine.execFldPowerFactor f s
  | .fldDspVersion f => Sys2Proof.Machine.execFldDspVersion f s
  | .fmtResp32 p => Sys2Proof.Machine.execFmtResp32 p s
  | .fmtCmd7 => Sys2Proof.Machine.execFmtCmd7 s

end Sys2Proof.Machine
end

