-- ==== Sys2Proof/Machine/Step.lean ====
section
/-! DEFINITION. One step: the core's complete reaction to the oldest pending event (00_scope.md R2, R3; 30_encoding.md
R33). -/

namespace Sys2Proof.Machine

/-- One step. With no event pending nothing changes and nothing is output (R3); otherwise the event is consumed and the
operation R33 selects for it runs; an operation word that matches no row is refused (R37). -/
def step (s : State) : Host.Outcome State Fault Refusal :=
  match s.inputs with
  | [] => .next s.idle
  | e :: _ =>
    match selectOp e s with
    | .ok i => exec i s.popInput
    | .error r => .refused (.undecodable r)

/-- The state whose next step runs the instruction of the word `w` (log entry 8). -/
def State.withFetchWord (s : State) (nbits w : Nat) : State := placeWord nbits w s

end Sys2Proof.Machine
end

