-- ==== Sys2Proof/Machine/Interpret.lean ====
section
/-! DEFINITION. How the 14 `raw` values are read: offsets, widths, scale, unit (41_telemetry_decoder.md R60 to R74,
R77; 30_encoding.md R31, R35), the fault bits (R75, R76), the run status (R70). -/

namespace Sys2Proof.Machine

/-- The 14 fields, in the order of the table (R60). -/
inductive FieldName where
  | solarVoltage1 | solarCurrent | solarVoltage2 | lineVoltage | lineCurrent | temperature | energyToday
  | energyTotal | faultCode | runStatus | frequency | operationTime | powerFactor | dspVersion
  deriving DecidableEq, Repr

/-- All 14, in record order. -/
def allFields : List FieldName :=
  [.solarVoltage1, .solarCurrent, .solarVoltage2, .lineVoltage, .lineCurrent, .temperature, .energyToday,
   .energyTotal, .faultCode, .runStatus, .frequency, .operationTime, .powerFactor, .dspVersion]

/-- The first frame offset of a field (30_encoding.md R31). -/
def FieldName.offset : FieldName → Nat
  | .solarVoltage1 => 3
  | .solarCurrent => 5
  | .solarVoltage2 => 7
  | .lineVoltage => 9
  | .lineCurrent => 11
  | .temperature => 13
  | .energyToday => 15
  | .energyTotal => 17
  | .faultCode => 20
  | .runStatus => 24
  | .frequency => 25
  | .operationTime => 27
  | .powerFactor => 29
  | .dspVersion => 30

/-- How many bytes a field takes (R31). -/
def FieldName.bytes : FieldName → Nat
  | .solarVoltage1 => 2
  | .solarCurrent => 2
  | .solarVoltage2 => 2
  | .lineVoltage => 2
  | .lineCurrent => 2
  | .temperature => 2
  | .energyToday => 2
  | .energyTotal => 3
  | .faultCode => 4
  | .runStatus => 1
  | .frequency => 2
  | .operationTime => 2
  | .powerFactor => 1
  | .dspVersion => 1

/-- The constant decimal exponent `k` (R35, R61 to R74). -/
def FieldName.exp10 : FieldName → Nat
  | .solarVoltage1 => 1
  | .solarCurrent => 1
  | .solarVoltage2 => 1
  | .lineVoltage => 1
  | .lineCurrent => 1
  | .temperature => 1
  | .energyToday => 2
  | .energyTotal => 0
  | .faultCode => 0
  | .runStatus => 0
  | .frequency => 1
  | .operationTime => 0
  | .powerFactor => 2
  | .dspVersion => 2

/-- The "Unit" column of the field table (R61 to R74). -/
inductive PhysUnit where
  | volt | ampere | degreeCelsius | kilowattHour | bitmask | enumeration | hertz | minute | ratio | version
  deriving DecidableEq, Repr

/-- The unit of a field. -/
def FieldName.unit : FieldName → PhysUnit
  | .solarVoltage1 => .volt
  | .solarCurrent => .ampere
  | .solarVoltage2 => .volt
  | .lineVoltage => .volt
  | .lineCurrent => .ampere
  | .temperature => .degreeCelsius
  | .energyToday => .kilowattHour
  | .energyTotal => .kilowattHour
  | .faultCode => .bitmask
  | .runStatus => .enumeration
  | .frequency => .hertz
  | .operationTime => .minute
  | .powerFactor => .ratio
  | .dspVersion => .version

/-- The `raw` value of a field as an unsigned number (R77, R78). -/
def TelemetryRecord.raw (r : TelemetryRecord) : FieldName → Nat
  | .solarVoltage1 => r.solarVoltage1.toNat
  | .solarCurrent => r.solarCurrent.toNat
  | .solarVoltage2 => r.solarVoltage2.toNat
  | .lineVoltage => r.lineVoltage.toNat
  | .lineCurrent => r.lineCurrent.toNat
  | .temperature => r.temperature.toNat
  | .energyToday => r.energyToday.toNat
  | .energyTotal => r.energyTotal.toNat
  | .faultCode => r.faultCode.toNat
  | .runStatus => r.runStatus.toNat
  | .frequency => r.frequency.toNat
  | .operationTime => r.operationTime.toNat
  | .powerFactor => r.powerFactor.toNat
  | .dspVersion => r.dspVersion.toNat

/-- The quantity a field denotes: the exact rational `raw / 10^k` (R35, R77). -/
def TelemetryRecord.value (r : TelemetryRecord) (n : FieldName) : ℚ := (r.raw n : ℚ) / 10 ^ n.exp10

/-- The integer part of the decimal rendering, `raw div 10^k` (R35). -/
def wholePart (raw k : Nat) : Nat := raw / 10 ^ k

/-- The `k` fractional digits of the decimal rendering: `raw mod 10^k` written with `k` digits (R35). -/
def fracDigits : Nat → Nat → List Nat
  | 0, _ => []
  | k + 1, raw => (raw / 10 ^ k) % 10 :: fracDigits k raw

/-- The decimal rendering (R35): 110 with k = 2 is "1.10". -/
def decimalText (raw k : Nat) : String :=
  toString (wholePart raw k) ++ (if k = 0 then "" else "." ++ String.join ((fracDigits k raw).map toString))

/-! ### The fault bit mask -/

/-- The 16 documented faults (R75). -/
inductive FaultName where
  | solarOvercurrent | solarOvervoltage | solarLowVoltage | dcLinkOvervoltage | dcLinkLowVoltage
  | inverterOvercurrent | lineOvervoltage | lineLowVoltage | overtemperature | lineHighFrequency
  | lineLowFrequency | solarOverpower | dcFault | dcLeakage | driveAlone | inverterOvercurrentHardware
  deriving DecidableEq, Repr

/-- All documented faults, in bit order. -/
def allFaults : List FaultName :=
  [.solarOvercurrent, .solarOvervoltage, .solarLowVoltage, .dcLinkOvervoltage, .dcLinkLowVoltage,
   .inverterOvercurrent, .lineOvervoltage, .lineLowVoltage, .overtemperature, .lineHighFrequency,
   .lineLowFrequency, .solarOverpower, .dcFault, .dcLeakage, .driveAlone, .inverterOvercurrentHardware]

/-- The bit of a fault, from the least significant (R75). -/
def FaultName.bit : FaultName → Nat
  | .solarOvercurrent => 0
  | .solarOvervoltage => 1
  | .solarLowVoltage => 2
  | .dcLinkOvervoltage => 3
  | .dcLinkLowVoltage => 4
  | .inverterOvercurrent => 5
  | .lineOvervoltage => 6
  | .lineLowVoltage => 7
  | .overtemperature => 8
  | .lineHighFrequency => 9
  | .lineLowFrequency => 10
  | .solarOverpower => 11
  | .dcFault => 12
  | .dcLeakage => 13
  | .driveAlone => 16
  | .inverterOvercurrentHardware => 17

/-- The fault is reported set exactly when its bit of `faultCode.raw` is 1 (R75). -/
def faultSet (raw : BitVec 32) (n : FaultName) : Bool := raw.getLsbD n.bit

/-- The documented faults that `raw` reports, in bit order (R75). -/
def faultsReported (raw : BitVec 32) : List FaultName := allFaults.filter (faultSet raw)

/-- The mask of the documented bits (R75). -/
def documentedFaultMask : BitVec 32 := 0x00033FFF#32

/-- The mask of the reserved bits, 14, 15 and 18 to 31 (R75, R76). -/
def reservedFaultMask : BitVec 32 := 0xFFFCC000#32

/-! ### The run status -/

/-- What the run-status byte says: only 0 and 1 have a meaning; any other is carried as it is (R70;
93_implementation_defined.md U2). -/
inductive RunStatus where
  | stop
  | run
  | unspecified (b : Byte)
  deriving DecidableEq, Repr

/-- The reading of the byte (R70). -/
def runStatusOf (b : Byte) : RunStatus :=
  if b = 0#8 then .stop else if b = 1#8 then .run else .unspecified b

end Sys2Proof.Machine
end

