-- ==== Sys2Proof/Machine/Trace.lean ====
section
/-! DEFINITION. Traces: the fold of the step over a list of events (20_memory.md R27, 40_frame_assembler.md R50), and
the trace notation (30_encoding.md R38). -/

namespace Sys2Proof.Machine

/-! ### Running a trace -/

/-- The event `e` is the next to be delivered. -/
def State.offer (s : State) (e : Event) : State := { s with inputs := e :: s.inputs }

/-- A trace from a state: the output record of every step, in order, and the outcome after the last event. It stops
at the first step that is refused. -/
def runTrace : State → List Event → List Output × Host.Outcome State Fault Refusal
  | s, [] => ([], .next s)
  | s, e :: tr =>
    match step (s.offer e) with
    | .next t => (t.out :: (runTrace t tr).1, (runTrace t tr).2)
    | .fault r => ([], .fault r)
    | .refused r => ([], .refused r)

/-- The output records of a trace. -/
def traceOutputs (s : State) (tr : List Event) : List Output := (runTrace s tr).1

/-- The outcome of a trace. -/
def traceEnd (s : State) (tr : List Event) : Host.Outcome State Fault Refusal := (runTrace s tr).2

/-- The bytes of `l`, each an `RX` event, in order (R38 `RXS`). -/
def rxs (l : List Byte) : List Event := l.map .rx

/-- The frames emitted, in order. -/
def framesOf (os : List Output) : List Frame := os.filterMap (fun o => o.frame)

/-- The telemetry records emitted, in order. -/
def recordsOf (os : List Output) : List TelemetryRecord := os.filterMap (fun o => o.telemetry.record)

/-- The diagnostic events, in order. -/
def diagsOf (os : List Output) : List Diag := os.filterMap (fun o => o.diag)

/-- What is done to the outbound byte sink, in order. -/
def sinkOpsOf (os : List Output) : List SinkOp := os.flatMap (fun o => o.tx)

/-! ### The trace notation -/

/-- The events and pseudo-operations of R38. -/
inductive TraceItem where
  /-- `RST`. -/
  | rst
  /-- `POLL`. -/
  | poll
  /-- `RX xx`. -/
  | rx (b : Byte)
  /-- `RXS xx yy zz ...`. -/
  | rxs (l : List Byte)
  /-- `RXN n xx`. -/
  | rxn (n : Nat) (b : Byte)
  /-- `FRAME p2 ... p30`. -/
  | frame (p : Payload)
  /-- `BADFRAME p2 ... p30`. -/
  | badFrame (p : Payload)
  deriving DecidableEq, Repr

/-- The expansion of a pseudo-operation (R38). -/
def TraceItem.expand : TraceItem → List Event
  | .rst => [.rst]
  | .poll => [.poll]
  | .rx b => [.rx b]
  | .rxs l => l.map .rx
  | .rxn n b => List.replicate n (.rx b)
  | .frame p => (frameOfPayload p).toList.map .rx
  | .badFrame p => (badFrameOfPayload p).toList.map .rx

/-- One hexadecimal digit. -/
def hexDigit (n : Nat) : Char :=
  ['0', '1', '2', '3', '4', '5', '6', '7', '8', '9', 'A', 'B', 'C', 'D', 'E', 'F'].getD n '?'

/-- A byte as two hexadecimal digits. -/
def hexByte (b : Byte) : List Char := [hexDigit (b.toNat / 16), hexDigit (b.toNat % 16)]

/-- Bytes, each after a space. -/
def hexBytes (l : List Byte) : List Char := l.flatMap (fun b => ' ' :: hexByte b)

/-- The text of a trace item (R38). -/
def TraceItem.text : TraceItem → List Char
  | .rst => "RST".toList
  | .poll => "POLL".toList
  | .rx b => "RX".toList ++ hexBytes [b]
  | .rxs l => "RXS".toList ++ hexBytes l
  | .rxn n b => "RXN ".toList ++ (toString n).toList ++ hexBytes [b]
  | .frame p => "FRAME".toList ++ hexBytes p.toList
  | .badFrame p => "BADFRAME".toList ++ hexBytes p.toList

end Sys2Proof.Machine
end

