-- ==== Sys2Proof/Machine/Ports.lean ====
section
/-! DEFINITION. The clocked rendering that 70_reset_and_hazards.md R122 recommends. It is not normative and no other
definition uses it (log entry 18). -/

namespace Sys2Proof.Machine

/-- The input ports in one cycle (R122). -/
structure PortsIn where
  rst : Bool
  rxValid : Bool
  rxData : Byte
  poll : Bool
  deriving DecidableEq, Repr

/-- The events of a cycle: `rst` overrides the others; a byte and a poll in one cycle are both performed (60_exceptions.md
R95); no port raised is no event (R122). -/
def PortsIn.events (p : PortsIn) : List Event :=
  if p.rst then [.rst]
  else (if p.rxValid then [.rx p.rxData] else []) ++ (if p.poll then [.poll] else [])

/-- The output ports in one cycle (R122). `frame` and the `rec_*` ports are meaningful only with `frame_valid`. -/
structure PortsOut where
  rxReady : Bool
  frameValid : Bool
  frame : Option (BitVec 256)
  record : Option TelemetryRecord
  diag : BitVec 3
  txValid : Bool
  txData : BitVec 56
  txFlush : Bool
  deriving DecidableEq, Repr

/-- The output ports of a cycle whose steps had the output records `os` (R122). -/
def portsOf (os : List Output) : PortsOut :=
  { rxReady := true
    frameValid := (framesOf os).head?.isSome
    frame := (framesOf os).head?.map frameBits
    record := (recordsOf os).head?
    diag := diagCode (diagsOf os).head?
    txValid := !(sinkOpsOf os).isEmpty
    txData := commandBits pollCommand
    txFlush := (sinkOpsOf os).contains .flush }

/-- One clock cycle. -/
def clockCycle (s : State) (p : PortsIn) : PortsOut × Host.Outcome State Fault Refusal :=
  (portsOf (traceOutputs s p.events), traceEnd s p.events)

end Sys2Proof.Machine
end

