-- ==== Sys2Proof/Safety.lean ====
section
/-! DEFINITION. What a safe state is (10_state.md R19), what a lawful output record is (00_scope.md R4,
40_frame_assembler.md R52, 60_exceptions.md R94), and when two states hold the same data (10_state.md R11). -/

namespace Sys2Proof.Machine

/-- The state invariant of 10_state.md R19. -/
abbrev State.Inv (s : State) : Prop :=
  s.cur.toNat < 32 ∧ (1 ≤ s.cur.toNat → s.buf.get 0 = Config.hdr1) ∧ (2 ≤ s.cur.toNat → s.buf.get 1 = Config.hdr2)

/-- An output record a step can have: a frame is a RawFrame and comes with `FrameValid` and with its own record; no
other step has either; what is sent is the poll command and one flush, by a step with no other output (R4, R52, R83,
R94). -/
abbrev Output.Lawful (o : Output) : Prop :=
  (∀ f, o.frame = some f → isRawFrame f = true ∧ o.diag = some .frameValid ∧ o.telemetry = (decodeRecord f).port
    ∧ o.tx = [])
  ∧ (o.frame = none → o.diag ≠ some .frameValid ∧ o.telemetry = { })
  ∧ (o.tx = [] ∨ o = { tx := [.write pollCommand, .flush] })

/-- Two states hold the same data: the same cursor and the same cells below it. The cells from the cursor on hold
nothing that any rule reads (10_state.md R11). -/
def State.Agrees (s t : State) : Prop :=
  s.cur = t.cur ∧ ∀ i : Fin 32, i.val < s.cur.toNat → s.buf.get i = t.buf.get i

end Sys2Proof.Machine
end

