-- ==== Sys2Proof/Vectors.lean ====
section
/-! DEFINITION. The named frames of 95_test_vectors.md. -/

namespace Sys2Proof.Vectors

/-- `T`: the source's test frame as printed; not a RawFrame (90_conflicts.md C1). -/
def frameT : Frame :=
  #v[0xB1#8, 0xB7#8, 0x01#8, 0x15#8, 0x0E#8, 0x05#8, 0x01#8, 0x01#8,
    0x0E#8, 0x9A#8, 0x08#8, 0xC8#8, 0x01#8, 0x60#8, 0x01#8, 0xFF#8,
    0x00#8, 0x9F#8, 0x86#8, 0x01#8, 0x00#8, 0x00#8, 0x00#8, 0x00#8,
    0x01#8, 0x59#8, 0x02#8, 0x01#8, 0x01#8, 0x63#8, 0x6E#8, 0xC1#8]

/-- `G`: `T` with the checksum corrected; a RawFrame. -/
def frameG : Frame :=
  #v[0xB1#8, 0xB7#8, 0x01#8, 0x15#8, 0x0E#8, 0x05#8, 0x01#8, 0x01#8,
    0x0E#8, 0x9A#8, 0x08#8, 0xC8#8, 0x01#8, 0x60#8, 0x01#8, 0xFF#8,
    0x00#8, 0x9F#8, 0x86#8, 0x01#8, 0x00#8, 0x00#8, 0x00#8, 0x00#8,
    0x01#8, 0x59#8, 0x02#8, 0x01#8, 0x01#8, 0x63#8, 0x6E#8, 0x9D#8]

/-- `Z`: all-zero payload. -/
def frameZ : Frame :=
  #v[0xB1#8, 0xB7#8, 0x00#8, 0x00#8, 0x00#8, 0x00#8, 0x00#8, 0x00#8,
    0x00#8, 0x00#8, 0x00#8, 0x00#8, 0x00#8, 0x00#8, 0x00#8, 0x00#8,
    0x00#8, 0x00#8, 0x00#8, 0x00#8, 0x00#8, 0x00#8, 0x00#8, 0x00#8,
    0x00#8, 0x00#8, 0x00#8, 0x00#8, 0x00#8, 0x00#8, 0x00#8, 0x06#8]

/-- `M`: all-ones payload. -/
def frameM : Frame :=
  #v[0xB1#8, 0xB7#8, 0xFF#8, 0xFF#8, 0xFF#8, 0xFF#8, 0xFF#8, 0xFF#8,
    0xFF#8, 0xFF#8, 0xFF#8, 0xFF#8, 0xFF#8, 0xFF#8, 0xFF#8, 0xFF#8,
    0xFF#8, 0xFF#8, 0xFF#8, 0xFF#8, 0xFF#8, 0xFF#8, 0xFF#8, 0xFF#8,
    0xFF#8, 0xFF#8, 0xFF#8, 0xFF#8, 0xFF#8, 0xFF#8, 0xFF#8, 0xF9#8]

/-- `I`: byte i is i, for i in 2..30. -/
def frameI : Frame :=
  #v[0xB1#8, 0xB7#8, 0x02#8, 0x03#8, 0x04#8, 0x05#8, 0x06#8, 0x07#8,
    0x08#8, 0x09#8, 0x0A#8, 0x0B#8, 0x0C#8, 0x0D#8, 0x0E#8, 0x0F#8,
    0x10#8, 0x11#8, 0x12#8, 0x13#8, 0x14#8, 0x15#8, 0x16#8, 0x17#8,
    0x18#8, 0x19#8, 0x1A#8, 0x1B#8, 0x1C#8, 0x1D#8, 0x1E#8, 0x18#8]

/-- `H`: `G` with energyTotal 47025 kWh, which puts `B1 B7` at offsets 17, 18. -/
def frameH : Frame :=
  #v[0xB1#8, 0xB7#8, 0x01#8, 0x15#8, 0x0E#8, 0x05#8, 0x01#8, 0x01#8,
    0x0E#8, 0x9A#8, 0x08#8, 0xC8#8, 0x01#8, 0x60#8, 0x01#8, 0xFF#8,
    0x00#8, 0xB1#8, 0xB7#8, 0x00#8, 0x00#8, 0x00#8, 0x00#8, 0x00#8,
    0x01#8, 0x59#8, 0x02#8, 0x01#8, 0x01#8, 0x63#8, 0x6E#8, 0x83#8]

/-- `R`: `H` rotated left by 17 bytes; also a RawFrame. -/
def frameR : Frame :=
  #v[0xB1#8, 0xB7#8, 0x00#8, 0x00#8, 0x00#8, 0x00#8, 0x00#8, 0x01#8,
    0x59#8, 0x02#8, 0x01#8, 0x01#8, 0x63#8, 0x6E#8, 0x83#8, 0xB1#8,
    0xB7#8, 0x01#8, 0x15#8, 0x0E#8, 0x05#8, 0x01#8, 0x01#8, 0x0E#8,
    0x9A#8, 0x08#8, 0xC8#8, 0x01#8, 0x60#8, 0x01#8, 0xFF#8, 0x00#8]

end Sys2Proof.Vectors
end

