-- ==== Sys2Proof/Certificates/Slice0/Obligations.lean ====
section
/-! DEFINITION. The statements for the provers. Each docstring names the rule of spec/ it formalises. -/

open Sys2Proof Sys2Proof.Machine

/-! ### Encoding -/

/-- Decoding the code word of a well-formed instruction gives it back, whenever the row's condition on the checksum
byte holds (30_encoding.md R31, R32, R33). The numbers that tell `DECODE`, the field operations and `FMT_RESP32` apart
are the model's (log entry 9). -/
def Obligations.DecodeEncodeAgree : Prop :=
  ∀ (i : Instr) (check : Byte), i.wf = true → i.condHolds check = true → decode (encode i) check = .ok i

/-- The other direction, up to the bits that `RST` and `POLL` ignore (30_encoding.md R33): what the decoder answers is
well-formed, meets its row's condition, and encodes to the very word it was read from; for `RST` and `POLL`, to that
word with its low 14 bits zero (log entry 22). For the 256-bit words it is a statement about the reader numbers, which
are the model's (log entry 9). -/
def Obligations.DecodedWordEncodesBackUpToIgnoredBits : Prop :=
  ∀ (w : CodeWord) (check : Byte) (i : Instr), decode w check = .ok i →
    i.wf = true ∧ i.condHolds check = true ∧ (i ≠ .rst → i ≠ .poll → encode i = w) ∧
    (i = .rst ∨ i = .poll → ∃ v : BitVec 16, w = .opw v ∧ encode i = .opw (v &&& 0xC000#16))

/-- Some words written out from R33's table and programs P1 and P2, with the operations they stand for. -/
def Obligations.WordsOfTheTable : Prop :=
  decode (.opw 0x8000#16) 0#8 = .ok .rst ∧ decode (.opw 0x4000#16) 0#8 = .ok .poll ∧
  decode (.opw 0x00B1#16) 0#8 = .ok .rxSyncHit ∧ decode (.opw 0x00B7#16) 0#8 = .ok (.rxSyncMiss 0xB7#8) ∧
  decode (.opw 0x01B7#16) 0#8 = .ok .rxHdr2Hit ∧ decode (.opw 0x0142#16) 0#8 = .ok (.rxHdr2Miss 0x42#8) ∧
  decode (.opw 0x1F9D#16) 0x9D#8 = .ok (.rxLastOk 0x9D#8) ∧ decode (.opw 0x1FC1#16) 0x9D#8 = .ok (.rxLastBad 0xC1#8) ∧
  decode (.opw 0x1E6E#16) 0#8 = .ok (.rxFill 30#6 0x6E#8) ∧ decode (.cmd7 0xCD05185461960A#56) 0#8 = .ok .fmtCmd7

/-- An operation word is refused exactly when `ev = 3`, or `ev = 0` and `cur` is in 32..63 (30_encoding.md R37). -/
def Obligations.RefusedOperationWords : Prop :=
  ∀ (w : BitVec 16) (check : Byte),
    (∃ r, decode (.opw w) check = .error r) ↔
      (w.extractLsb' 14 2 = 3#2 ∨ (w.extractLsb' 14 2 = 0#2 ∧ 32 ≤ (w.extractLsb' 8 6).toNat))

/-- A 32-byte sequence is a RawFrame exactly when it is built from its 29 free bytes, and different free bytes give
different RawFrames (30_encoding.md R31). -/
def Obligations.RawFramesAreTheirPayloads : Prop :=
  (∀ f : Frame, isRawFrame f = true ↔ f = frameOfPayload (payloadOf f)) ∧
  (∀ p q : Payload, frameOfPayload p = frameOfPayload q → p = q)

/-! ### The step -/

/-- A step is the meaning of the operation that the event's operation word decodes to, run with that event consumed
(30_encoding.md R33). -/
def Obligations.StepRunsDecoded : Prop :=
  ∀ (s : State) (e : Event) (rest : List Event) (i : Instr), s.inputs = e :: rest →
    decode (.opw (packOpw e.kind s.cur e.byte)) (xor31 s.buf) = .ok i →
    step s = exec i { s with inputs := rest }

/-- With no event there is no step: the state does not change and nothing is output (00_scope.md R3). -/
def Obligations.NoEventNoChange : Prop :=
  ∀ s : State, s.inputs = [] → step s = .next { s with out := { } }

/-- A step stops exactly when an event is pending and the cursor is in 32..63; whichever event it is, the step is then
refused by name (30_encoding.md R37, 92_eei_decisions.md D27; log entry 6). In every other state it answers a next state
with the oldest event, if there is one, consumed; with none pending the step is the model's idle one (log entry 3). -/
def Obligations.OnlyUnreachableCursorStops : Prop :=
  ∀ s : State,
    (s.inputs ≠ [] ∧ 32 ≤ s.cur.toNat → step s = .refused (.undecodable .cursorUnreachable)) ∧
    (¬ (s.inputs ≠ [] ∧ 32 ≤ s.cur.toNat) → ∃ t, step s = .next t ∧ t.inputs = s.inputs.tail)

/-- The state invariant (10_state.md R19): after reset and after every step from a state that has it, the cursor is at
most 31, and the header bytes are in place as soon as the cursor has passed them. -/
def Obligations.StateInvariantKept : Prop :=
  State.reset.Inv ∧ ∀ s t : State, s.Inv → step s = .next t → t.Inv

/-- After reset: cursor 0 (10_state.md R18), no output (the spec's decision D17, log entry 19; that the output is a field
of the state is log entry 2), no event pending (the model's choice, log entry 1). -/
def Obligations.ResetIsEmpty : Prop :=
  State.reset.cur = 0#6 ∧ State.reset.out = { } ∧ State.reset.inputs = [] ∧ State.reset.Inv

/-- Every output record of a step is lawful: an emitted frame is a RawFrame and comes with `FrameValid` and its own
record, no other step has either, and what is sent is the poll command and one flush, alone (00_scope.md R4,
40_frame_assembler.md R52, 42_command_encoder.md R83, 60_exceptions.md R94). That the record and `FrameValid` come in the
frame's own step is the spec's decision D11 (log entry 13), that the seven bytes and the flush are one step is D12 (log
entry 12). -/
def Obligations.StepOutputsLawful : Prop :=
  ∀ s t : State, s.Inv → step s = .next t → t.out.Lawful

/-! ### The operations of the FrameAssembler -/

/-- `RX_SYNC_MISS` (40_frame_assembler.md R42): the cursor stays 0, the step's only output is `SyncError`; a run of n
non-0xB1 bytes raises n `SyncError` events, one per byte. Cell 0 is left out: whether the operation writes it is
unobservable (R41). -/
def Obligations.SyncMissResult : Prop :=
  (∀ (b : Byte) (s : State), s.cur = 0#6 → b ≠ 0xB1#8 →
    ∃ t, exec (.rxSyncMiss b) s = .next t ∧ t.cur = 0#6 ∧ t.out = { diag := some .syncError } ∧
      (∀ i : Fin 32, i ≠ 0 → t.buf.get i = s.buf.get i) ∧ t.inputs = s.inputs ∧ t.freeIdx = s.freeIdx) ∧
  (∀ (s : State) (bs : List Byte), s.cur = 0#6 → (∀ b ∈ bs, b ≠ 0xB1#8) →
    traceOutputs s (rxs bs) = List.replicate bs.length { diag := some .syncError } ∧
    ∃ t, traceEnd s (rxs bs) = .next t ∧ t.cur = 0#6)

/-- `RX_SYNC_HIT` (R43). -/
def Obligations.SyncHitResult : Prop :=
  ∀ s : State, s.cur = 0#6 →
    ∃ t, exec .rxSyncHit s = .next t ∧ t.cur = 1#6 ∧ t.buf.get 0 = 0xB1#8 ∧ t.out = { } ∧
      (∀ i : Fin 32, i ≠ 0 → t.buf.get i = s.buf.get i) ∧ t.inputs = s.inputs ∧ t.freeIdx = s.freeIdx

/-- `RX_HDR2_MISS` (R44), for every byte that is not 0xB7, 0xB1 among them: the cursor is 0, not 1; so
`B1 B1 B7` ends in Empty with one `HeaderError` and one `SyncError`, and a 0xB1 that no 0xB7 follows gives no frame. Cell
1 is left out (R41). -/
def Obligations.Hdr2MissResult : Prop :=
  (∀ (b : Byte) (s : State), s.cur = 1#6 → b ≠ 0xB7#8 →
    ∃ t, exec (.rxHdr2Miss b) s = .next t ∧ t.cur = 0#6 ∧ t.out = { diag := some .headerError } ∧
      (∀ i : Fin 32, i ≠ 1 → t.buf.get i = s.buf.get i) ∧ t.inputs = s.inputs ∧ t.freeIdx = s.freeIdx) ∧
  (∀ s : State, s.cur = 0#6 →
    traceOutputs s (rxs [0xB1#8, 0xB1#8, 0xB7#8]) =
      [{ }, { diag := some .headerError }, { diag := some .syncError }] ∧
    ∃ t, traceEnd s (rxs [0xB1#8, 0xB1#8, 0xB7#8]) = .next t ∧ t.cur = 0#6) ∧
  (∀ (s : State) (b : Byte), s.cur = 0#6 → b ≠ 0xB7#8 →
    framesOf (traceOutputs s (rxs [0xB1#8, b])) = [] ∧ ∃ t, traceEnd s (rxs [0xB1#8, b]) = .next t ∧ t.cur = 0#6)

/-- `RX_HDR2_HIT` (R45). -/
def Obligations.Hdr2HitResult : Prop :=
  ∀ s : State, s.cur = 1#6 →
    ∃ t, exec .rxHdr2Hit s = .next t ∧ t.cur = 2#6 ∧ t.buf.get 1 = 0xB7#8 ∧ t.out = { } ∧
      (∀ i : Fin 32, i ≠ 1 → t.buf.get i = s.buf.get i) ∧ t.inputs = s.inputs ∧ t.freeIdx = s.freeIdx

/-- `RX_FILL` (R46), for every byte, 0xB1 and 0xB7 among them, at every cursor 2..30. -/
def Obligations.FillResult : Prop :=
  ∀ (c : BitVec 6) (b : Byte) (s : State), s.cur = c → 2 ≤ c.toNat → c.toNat ≤ 30 →
    ∃ t, exec (.rxFill c b) s = .next t ∧ t.cur.toNat = c.toNat + 1 ∧
      (∀ i : Fin 32, t.buf.get i = if i.val = c.toNat then b else s.buf.get i) ∧ t.out = { } ∧
      t.inputs = s.inputs ∧ t.freeIdx = s.freeIdx

/-- `RX_LAST_OK` (R47): the 32nd byte is stored, the cursor is 0, and the step's outputs are the frame (a copy of the 32
cells), its record and `FrameValid`; where the state invariant holds the frame is a RawFrame. That the check and `DECODE`
run in this step are the spec's decisions D3 and D11. -/
def Obligations.LastOkResult : Prop :=
  ∀ (b : Byte) (s : State), s.cur = 31#6 → b = xor31 s.buf →
    ∃ t, exec (.rxLastOk b) s = .next t ∧ t.cur = 0#6 ∧
      (∀ i : Fin 32, t.buf.get i = if i.val = 31 then b else s.buf.get i) ∧
      t.out = { diag := some .frameValid, frame := some t.buf, telemetry := (decodeRecord t.buf).port } ∧
      (s.Inv → isRawFrame t.buf = true) ∧ t.inputs = s.inputs ∧ t.freeIdx = s.freeIdx

/-- `RX_LAST_BAD` (R48): the buffer is discarded, the step's only output is `ChecksumError`. That the check runs in this
step, the 32nd byte's, is the spec's decision D3 (log entry 13). -/
def Obligations.LastBadResult : Prop :=
  ∀ (b : Byte) (s : State), s.cur = 31#6 → b ≠ xor31 s.buf →
    ∃ t, exec (.rxLastBad b) s = .next t ∧ t.cur = 0#6 ∧ t.out = { diag := some .checksumError } ∧
      (∀ i : Fin 32, t.buf.get i = if i.val = 31 then b else s.buf.get i) ∧
      t.inputs = s.inputs ∧ t.freeIdx = s.freeIdx

/-- Where R33 does not select an `RX_*` operation, its meaning is refused by name; where it does, it completes (the
model's reading, log entry 7). -/
def Obligations.RxOperationsRunWhereSelected : Prop :=
  ∀ (s : State) (c : BitVec 6) (b : Byte),
    (∀ i ∈ [Instr.rxSyncHit, .rxSyncMiss b, .rxHdr2Hit, .rxHdr2Miss b, .rxFill c b, .rxLastOk b, .rxLastBad b],
      (∃ t, exec i s = .next t) ∨ exec i s = .refused .notSelected) ∧
    ((∃ t, exec .rxSyncHit s = .next t) ↔ s.cur = 0#6) ∧
    ((∃ t, exec (.rxSyncMiss b) s = .next t) ↔ s.cur = 0#6 ∧ b ≠ 0xB1#8) ∧
    ((∃ t, exec .rxHdr2Hit s = .next t) ↔ s.cur = 1#6) ∧
    ((∃ t, exec (.rxHdr2Miss b) s = .next t) ↔ s.cur = 1#6 ∧ b ≠ 0xB7#8) ∧
    ((∃ t, exec (.rxFill c b) s = .next t) ↔ s.cur = c ∧ 2 ≤ c.toNat ∧ c.toNat ≤ 30) ∧
    ((∃ t, exec (.rxLastOk b) s = .next t) ↔ s.cur = 31#6 ∧ b = xor31 s.buf) ∧
    ((∃ t, exec (.rxLastBad b) s = .next t) ↔ s.cur = 31#6 ∧ b ≠ xor31 s.buf)

/-- The complete transition table (40_frame_assembler.md R54), row by row: which operation the step runs, the cursor
after it and its diagnostic. "any" of its last two rows is any cursor 0..31 (10_state.md R14); for the others D27 asks for
a refusal (log entry 6). That the rows at cursor 31 are one step each is D3 (log entry 13). -/
def Obligations.TransitionTable : Prop :=
  ∀ (s : State) (rest : List Event),
    (∀ b, s.inputs = .rx b :: rest → s.cur = 0#6 → b = 0xB1#8 →
      ∃ t, step s = .next t ∧ exec .rxSyncHit { s with inputs := rest } = .next t ∧ t.cur = 1#6 ∧ t.out.diag = none) ∧
    (∀ b, s.inputs = .rx b :: rest → s.cur = 0#6 → b ≠ 0xB1#8 →
      ∃ t, step s = .next t ∧ exec (.rxSyncMiss b) { s with inputs := rest } = .next t ∧ t.cur = 0#6 ∧
        t.out.diag = some .syncError) ∧
    (∀ b, s.inputs = .rx b :: rest → s.cur = 1#6 → b = 0xB7#8 →
      ∃ t, step s = .next t ∧ exec .rxHdr2Hit { s with inputs := rest } = .next t ∧ t.cur = 2#6 ∧ t.out.diag = none) ∧
    (∀ b, s.inputs = .rx b :: rest → s.cur = 1#6 → b ≠ 0xB7#8 →
      ∃ t, step s = .next t ∧ exec (.rxHdr2Miss b) { s with inputs := rest } = .next t ∧ t.cur = 0#6 ∧
        t.out.diag = some .headerError) ∧
    (∀ b, s.inputs = .rx b :: rest → 2 ≤ s.cur.toNat → s.cur.toNat ≤ 30 →
      ∃ t, step s = .next t ∧ exec (.rxFill s.cur b) { s with inputs := rest } = .next t ∧
        t.cur.toNat = s.cur.toNat + 1 ∧ t.out.diag = none) ∧
    (∀ b, s.inputs = .rx b :: rest → s.cur = 31#6 → b = xor31 s.buf →
      ∃ t, step s = .next t ∧ exec (.rxLastOk b) { s with inputs := rest } = .next t ∧ t.cur = 0#6 ∧
        t.out.diag = some .frameValid) ∧
    (∀ b, s.inputs = .rx b :: rest → s.cur = 31#6 → b ≠ xor31 s.buf →
      ∃ t, step s = .next t ∧ exec (.rxLastBad b) { s with inputs := rest } = .next t ∧ t.cur = 0#6 ∧
        t.out.diag = some .checksumError) ∧
    (s.inputs = .rst :: rest → s.cur.toNat < 32 →
      ∃ t, step s = .next t ∧ exec .rst { s with inputs := rest } = .next t ∧ t.cur = 0#6 ∧ t.out.diag = none) ∧
    (s.inputs = .poll :: rest → s.cur.toNat < 32 →
      ∃ t, step s = .next t ∧ exec .poll { s with inputs := rest } = .next t ∧ t.cur = s.cur ∧ t.out.diag = none)

/-- A cell is written only by an `RX` step taken with the cursor at that cell, with the incoming byte (10_state.md R10).
`RST` is apart: it leaves the cells unspecified (R18). -/
def Obligations.OnlyRxWritesItsCell : Prop :=
  ∀ (s t : State) (i : Fin 32), step s = .next t → s.inputs.head? ≠ some .rst → t.buf.get i ≠ s.buf.get i →
    ∃ b rest, s.inputs = .rx b :: rest ∧ s.cur.toNat = i.val ∧ t.buf.get i = b

/-! ### The response checksum -/

/-- `xor31` (R40): bit j of the result is the parity of bit j of the 31 bytes; a frame's last byte is its checksum
exactly when the exclusive-OR of all 32 bytes is 0; the rule's example. -/
def Obligations.Xor31IsParity : Prop :=
  (∀ (f : Frame) (j : Nat), j < 8 →
    (xor31 f).getLsbD j = decide ((f.toList.take 31).countP (fun b => b.getLsbD j) % 2 = 1)) ∧
  (∀ f : Frame, f.get 31 = xor31 f ↔ f.toList.foldl (fun x y => x ^^^ y) 0#8 = 0#8) ∧
  xor31 Vectors.frameZ = 0x06#8 ∧ xor31 Vectors.frameT ≠ Vectors.frameT.get 31

/-- The order in which the bytes are combined does not matter (R55). -/
def Obligations.XorIgnoresOrder : Prop :=
  ∀ l m : List Byte, l.Perm m → xorBytes l = xorBytes m

/-! ### The TelemetryDecoder -/

/-- The seven two-byte fields with exponent 1 (41_telemetry_decoder.md R61 to R66, R71): each operation puts
`F[a] + 256*F[a+1]`, 16 bits, into its field and changes nothing else. -/
def Obligations.TenthFields : Prop :=
  (∀ (f : Frame) (s : State),
    exec (.fldSolarVoltage1 f) s = .next { s with out := { s.out with telemetry := { s.out.telemetry with
      solarVoltage1 := some ((f.get 3).setWidth 16 + 256#16 * (f.get 4).setWidth 16) } } } ∧
    exec (.fldSolarCurrent f) s = .next { s with out := { s.out with telemetry := { s.out.telemetry with
      solarCurrent := some ((f.get 5).setWidth 16 + 256#16 * (f.get 6).setWidth 16) } } } ∧
    exec (.fldSolarVoltage2 f) s = .next { s with out := { s.out with telemetry := { s.out.telemetry with
      solarVoltage2 := some ((f.get 7).setWidth 16 + 256#16 * (f.get 8).setWidth 16) } } } ∧
    exec (.fldLineVoltage f) s = .next { s with out := { s.out with telemetry := { s.out.telemetry with
      lineVoltage := some ((f.get 9).setWidth 16 + 256#16 * (f.get 10).setWidth 16) } } } ∧
    exec (.fldLineCurrent f) s = .next { s with out := { s.out with telemetry := { s.out.telemetry with
      lineCurrent := some ((f.get 11).setWidth 16 + 256#16 * (f.get 12).setWidth 16) } } } ∧
    exec (.fldTemperature f) s = .next { s with out := { s.out with telemetry := { s.out.telemetry with
      temperature := some ((f.get 13).setWidth 16 + 256#16 * (f.get 14).setWidth 16) } } } ∧
    exec (.fldFrequency f) s = .next { s with out := { s.out with telemetry := { s.out.telemetry with
      frequency := some ((f.get 25).setWidth 16 + 256#16 * (f.get 26).setWidth 16) } } }) ∧
  (∀ n ∈ [FieldName.solarVoltage1, .solarCurrent, .solarVoltage2, .lineVoltage, .lineCurrent, .temperature, .frequency],
    n.exp10 = 1 ∧ n.bytes = 2 ∧ ∀ r : TelemetryRecord, r.value n = (r.raw n : ℚ) / 10) ∧
  [FieldName.solarVoltage1, .solarCurrent, .solarVoltage2, .lineVoltage, .lineCurrent, .temperature, .frequency].map
    FieldName.unit = [.volt, .ampere, .volt, .volt, .ampere, .degreeCelsius, .hertz]

/-- The other two-byte fields (R67, exponent 2; R72, exponent 0); energyToday is the only two-byte field with exponent
2. -/
def Obligations.EnergyTodayAndOperationTime : Prop :=
  (∀ (f : Frame) (s : State),
    exec (.fldEnergyToday f) s = .next { s with out := { s.out with telemetry := { s.out.telemetry with
      energyToday := some ((f.get 15).setWidth 16 + 256#16 * (f.get 16).setWidth 16) } } } ∧
    exec (.fldOperationTime f) s = .next { s with out := { s.out with telemetry := { s.out.telemetry with
      operationTime := some ((f.get 27).setWidth 16 + 256#16 * (f.get 28).setWidth 16) } } }) ∧
  FieldName.energyToday.exp10 = 2 ∧ FieldName.energyToday.unit = .kilowattHour ∧
  (∀ n : FieldName, n.bytes = 2 ∧ n.exp10 = 2 ↔ n = .energyToday) ∧
  FieldName.operationTime.exp10 = 0 ∧ FieldName.operationTime.unit = .minute ∧
  (∀ r : TelemetryRecord, r.value .energyToday = (r.raw .energyToday : ℚ) / 100 ∧
    r.value .operationTime = (r.raw .operationTime : ℚ))

/-- The three- and four-byte fields (R68, R69); bit i of the fault code is bit `i mod 8` of
byte `20 + i div 8`. -/
def Obligations.EnergyTotalAndFaultCode : Prop :=
  (∀ (f : Frame) (s : State),
    exec (.fldEnergyTotal f) s = .next { s with out := { s.out with telemetry := { s.out.telemetry with
      energyTotal := some ((f.get 17).setWidth 24 + 256#24 * (f.get 18).setWidth 24
        + 65536#24 * (f.get 19).setWidth 24) } } } ∧
    exec (.fldFaultCode f) s = .next { s with out := { s.out with telemetry := { s.out.telemetry with
      faultCode := some ((f.get 20).setWidth 32 + 256#32 * (f.get 21).setWidth 32
        + 65536#32 * (f.get 22).setWidth 32 + 16777216#32 * (f.get 23).setWidth 32) } } }) ∧
  (∀ (f : Frame) (i : Nat) (h : i < 32),
    (decodeRecord f).faultCode.getLsbD i = (f.get ⟨20 + i / 8, by omega⟩).getLsbD (i % 8)) ∧
  FieldName.energyTotal.exp10 = 0 ∧ FieldName.energyTotal.unit = .kilowattHour ∧
  FieldName.faultCode.exp10 = 0 ∧ FieldName.faultCode.unit = .bitmask ∧
  (∀ r : TelemetryRecord, r.value .energyTotal = (r.raw .energyTotal : ℚ)) ∧ faultsReported 0#32 = []

/-- `FLD_powerFactor` and `FLD_dspVersion` (R73, R74): the raw byte, exponent 2; 110 is printed "1.10". -/
def Obligations.PowerFactorAndVersion : Prop :=
  (∀ (f : Frame) (s : State),
    exec (.fldPowerFactor f) s = .next { s with out := { s.out with telemetry := { s.out.telemetry with
      powerFactor := some (f.get 29) } } } ∧
    exec (.fldDspVersion f) s = .next { s with out := { s.out with telemetry := { s.out.telemetry with
      dspVersion := some (f.get 30) } } }) ∧
  FieldName.powerFactor.exp10 = 2 ∧ FieldName.powerFactor.unit = .ratio ∧
  FieldName.dspVersion.exp10 = 2 ∧ FieldName.dspVersion.unit = .version ∧
  (∀ r : TelemetryRecord, r.value .powerFactor = (r.raw .powerFactor : ℚ) / 100 ∧
    r.value .dspVersion = (r.raw .dspVersion : ℚ) / 100) ∧
  decimalText 110 2 = "1.10"

/-- `FLD_runStatus` (R70): the raw byte; 0 is stop, 1 is run; that any other byte is passed through without a meaning is
the spec's decision D15. -/
def Obligations.RunStatusIsTheByte : Prop :=
  (∀ (f : Frame) (s : State),
    exec (.fldRunStatus f) s = .next { s with out := { s.out with telemetry := { s.out.telemetry with
      runStatus := some (f.get 24) } } }) ∧
  runStatusOf 0#8 = .stop ∧ runStatusOf 1#8 = .run ∧
  (∀ b : Byte, b ≠ 0#8 → b ≠ 1#8 → runStatusOf b = .unspecified b) ∧
  FieldName.runStatus.exp10 = 0 ∧ FieldName.runStatus.unit = .enumeration

/-- The record of the source's test frame `T`, field by field (the examples of R61 to R74). -/
def Obligations.TestFrameRecord : Prop :=
  allFields.map (decodeRecord Vectors.frameT).raw =
    [3605, 261, 3585, 2202, 456, 352, 255, 99999, 0, 1, 601, 257, 99, 110]

/-- `DECODE` (R60): the telemetry part becomes the complete record of the frame, nothing else changes. -/
def Obligations.DecodeFillsTheRecord : Prop :=
  ∀ (f : Frame) (s : State), ∃ t, exec (.decode f) s = .next t ∧
    t.out.telemetry.record = some (decodeRecord f) ∧ t.out.diag = s.out.diag ∧ t.out.frame = s.out.frame ∧
    t.out.tx = s.out.tx ∧ t.cur = s.cur ∧ t.buf = s.buf ∧ t.inputs = s.inputs ∧ t.freeIdx = s.freeIdx

/-- Running instructions one after another, for the next statement. -/
def Sys2Proof.Machine.runInstrs : List Instr → State → Host.Outcome State Fault Refusal
  | [], s => .next s
  | i :: is, s =>
    match exec i s with
    | .next t => runInstrs is t
    | .fault r => .fault r
    | .refused r => .refused r

/-- `DECODE` is its 14 field operations on a fresh record, evaluated in any order (R60). -/
def Obligations.DecodeIsItsFieldsInAnyOrder : Prop :=
  ∀ (f : Frame) (s : State) (ops : List Instr),
    ops.Perm [.fldSolarVoltage1 f, .fldSolarCurrent f, .fldSolarVoltage2 f, .fldLineVoltage f, .fldLineCurrent f,
      .fldTemperature f, .fldEnergyToday f, .fldEnergyTotal f, .fldFaultCode f, .fldRunStatus f, .fldFrequency f,
      .fldOperationTime f, .fldPowerFactor f, .fldDspVersion f] →
    runInstrs ops { s with out := { s.out with telemetry := { } } } = exec (.decode f) s

/-- Every field is the little-endian number of its bytes (20_memory.md R22) and the slice of `Fv` at its place
(30_encoding.md R31, R36). -/
def Obligations.FieldsAreLittleEndianSlices : Prop :=
  ∀ (f : Frame) (n : FieldName),
    (decodeRecord f).raw n = memRead f n.offset n.bytes ∧
    (decodeRecord f).raw n = ((frameBits f).extractLsb' (8 * n.offset) (8 * n.bytes)).toNat

/-- The record and the 28 bytes at offsets 3 to 30 determine each other, offsets 0, 1, 2 and 31 have no part in it
(R79, R80), and every record is the record of a RawFrame. -/
def Obligations.RecordIsTheFieldBytes : Prop :=
  (∀ f g : Frame, decodeRecord f = decodeRecord g ↔ ∀ i : Fin 32, 3 ≤ i.val → i.val ≤ 30 → f.get i = g.get i) ∧
  (∀ r : TelemetryRecord, ∃ f : Frame, isRawFrame f = true ∧ decodeRecord f = r)

/-- The fault bits (R75): each documented fault is its bit of the fault code, in the frame byte the table names; the two
masks; the document's example. -/
def Obligations.FaultBitTable : Prop :=
  (∀ (raw : BitVec 32) (n : FaultName), n ∈ faultsReported raw ↔ raw.getLsbD n.bit = true) ∧
  (∀ (f : Frame) (n : FaultName) (h : n.bit < 24),
    (n ∈ faultsReported (decodeRecord f).faultCode ↔
      (f.get ⟨20 + n.bit / 8, by omega⟩).getLsbD (n.bit % 8) = true)) ∧
  (∀ n : FaultName, n.bit < 24 ∧ documentedFaultMask.getLsbD n.bit = true) ∧
  (∀ i, documentedFaultMask.getLsbD i = true → ∃ n : FaultName, n.bit = i) ∧
  (∀ i, i < 32 → (reservedFaultMask.getLsbD i = true ↔ documentedFaultMask.getLsbD i = false)) ∧
  documentedFaultMask = 0x00033FFF#32 ∧ reservedFaultMask = 0xFFFCC000#32 ∧
  faultsReported 0x00000021#32 = [.solarOvercurrent, .inverterOvercurrent] ∧
  allFaults.map FaultName.bit = [0, 1, 2, 3, 4, 5, 6, 7, 8, 9, 10, 11, 12, 13, 16, 17]

/-- Reserved fault bits are not masked (R76): the record that the step of a good 32nd byte emits carries all 32 bits of
bytes 20 to 23 as they are, whatever they are, and the frame is valid like any other. That the record and `FrameValid`
come in that step is R47 with the spec's decisions D3 and D11 (log entry 13). -/
def Obligations.ReservedFaultBitsPreserved : Prop :=
  ∀ (s : State) (b : Byte) (rest : List Event), s.inputs = .rx b :: rest → s.cur = 31#6 → b = xor31 s.buf →
    ∃ t r, step s = .next t ∧ t.out.diag = some .frameValid ∧ t.out.telemetry.record = some r ∧
      r.faultCode = s.buf.get 23 ++ s.buf.get 22 ++ s.buf.get 21 ++ s.buf.get 20

/-- Every field is unsigned (R78): no value is negative, and temperature raw 0xFFFF is 6553.5 degrees. -/
def Obligations.FieldsAreUnsigned : Prop :=
  (∀ (r : TelemetryRecord) (n : FieldName), 0 ≤ r.value n) ∧
  (∀ r : TelemetryRecord, r.temperature = 0xFFFF#16 → r.value .temperature = 6553 + 1 / 2)

/-- Scaling (30_encoding.md R35): the value of a field is exactly its whole part plus its `k` fractional digits, each
below 10. -/
def Obligations.DecimalRenderingExact : Prop :=
  ∀ (r : TelemetryRecord) (n : FieldName),
    (fracDigits n.exp10 (r.raw n)).length = n.exp10 ∧ (∀ d ∈ fracDigits n.exp10 (r.raw n), d < 10) ∧
    r.value n = (wholePart (r.raw n) n.exp10 : ℚ)
      + ((fracDigits n.exp10 (r.raw n)).foldl (fun a d => 10 * a + d) 0 : Nat) / 10 ^ n.exp10

/-! ### The CommandEncoder -/

/-- `sum8` (42_command_encoder.md R81): reducing after every addition gives the sum of the bytes modulo 256; the two
examples. -/
def Obligations.Sum8IsTheSumModulo256 : Prop :=
  (∀ (l : List Byte) (lo hi : Nat), lo ≤ hi → hi < l.length →
    (sum8 l lo hi).toNat = ((List.range' lo (hi + 1 - lo)).map (fun i => (l.getD i 0#8).toNat)).sum % 256) ∧
  sum8 [0x0A#8, 0x96#8, 0x61#8, 0x54#8, 0x18#8, 0x05#8] 2 4 = 0xCD#8 ∧ sum8 [0xFF#8, 0x02#8] 0 1 = 0x01#8

/-- The PollCommand (R82): `CMD_FIXED`, then the sum of its bytes 2, 3, 4; the seven bytes. -/
def Obligations.PollCommandBytes : Prop :=
  pollCommand.toList = Config.cmdFixed.toList ++ [sum8 Config.cmdFixed.toList 2 4] ∧
  Config.cmdFixed.toList = [0x0A#8, 0x96#8, 0x61#8, 0x54#8, 0x18#8, 0x05#8] ∧
  pollCommand = #v[0x0A#8, 0x96#8, 0x61#8, 0x54#8, 0x18#8, 0x05#8, 0xCD#8]

/-- `POLL` (R83): from any cursor 0..31, the seven bytes in offset order and then one flush, nothing else; `buf` and
`cur` are not touched. That the seven bytes and the flush are one step is the spec's decision D12 (log entry 12). At a
cursor in 32..63 it is refused (D27, log entry 6). -/
def Obligations.PollResult : Prop :=
  ∀ s : State,
    (s.cur.toNat < 32 → exec .poll s = .next { s with
      out := { tx := [.write #v[0x0A#8, 0x96#8, 0x61#8, 0x54#8, 0x18#8, 0x05#8, 0xCD#8], .flush] } }) ∧
    (32 ≤ s.cur.toNat → exec .poll s = .refused (.undecodable .cursorUnreachable))

/-! ### The data formats and reset -/

/-- The data formats as operations: each puts a value of its format on its interface. The model's choice (log entry 11);
the values are 30_encoding.md R31's and R32's, and the command satisfies its own checksum (42_command_encoder.md R84). -/
def Obligations.FormatResults : Prop :=
  (∀ (p : Payload) (s : State), ∃ t f, exec (.fmtResp32 p) s = .next t ∧ t = { s with out := { s.out with frame := some f } } ∧
    f.get 0 = 0xB1#8 ∧ f.get 1 = 0xB7#8 ∧ (∀ (i : Nat) (h : i < 29), f.get ⟨i + 2, by omega⟩ = p[i]) ∧
    f.get 31 = xor31 f) ∧
  (∀ s : State, exec .fmtCmd7 s = .next { s with out := { s.out with
    tx := [.write #v[0x0A#8, 0x96#8, 0x61#8, 0x54#8, 0x18#8, 0x05#8, 0xCD#8], .flush] } }) ∧
  commandBits pollCommand = 0xCD05185461960A#56 ∧ pollCommand.get 6 = sum8 pollCommand.toList 2 4

/-- `RST` (70_reset_and_hazards.md R110): from any cursor 0..31, cursor 0, no output of any kind, the events still
pending are kept. Nothing is said about the cells. The operation and its silence are the spec's decision D17 (log entry
19). At a cursor in 32..63 it is refused (D27, log entry 6). -/
def Obligations.RstResult : Prop :=
  ∀ s : State,
    (s.cur.toNat < 32 → ∃ t, exec .rst s = .next t ∧ t.cur = 0#6 ∧ t.out = { } ∧ t.inputs = s.inputs) ∧
    (32 ≤ s.cur.toNat → exec .rst s = .refused (.undecodable .cursorUnreachable))

/-! ### Diagnostics -/

/-- The four diagnostic events, their codes and their causes (60_exceptions.md R90): each is reported by a step exactly
when its cause holds. The codes 0 to 4 are the spec's decision D9 (log entry 14); that `ChecksumError` and `FrameValid`
fall in the step taken at cursor 31 is D3 (log entry 13). -/
def Obligations.DiagnosticCauses : Prop :=
  (diagCode none = 0#3 ∧ diagCode (some .syncError) = 1#3 ∧ diagCode (some .headerError) = 2#3 ∧
    diagCode (some .checksumError) = 3#3 ∧ diagCode (some .frameValid) = 4#3) ∧
  ∀ s t : State, step s = .next t →
    (t.out.diag = some .syncError ↔ ∃ b rest, s.inputs = .rx b :: rest ∧ s.cur = 0#6 ∧ b ≠ 0xB1#8) ∧
    (t.out.diag = some .headerError ↔ ∃ b rest, s.inputs = .rx b :: rest ∧ s.cur = 1#6 ∧ b ≠ 0xB7#8) ∧
    (t.out.diag = some .checksumError ↔ ∃ b rest, s.inputs = .rx b :: rest ∧ s.cur = 31#6 ∧ b ≠ xor31 s.buf) ∧
    (t.out.diag = some .frameValid ↔ ∃ b rest, s.inputs = .rx b :: rest ∧ s.cur = 31#6 ∧ b = xor31 s.buf)

/-- What an error condition does (R96): the cursor returns to 0; apart from the cell the offending byte went to, nothing
is changed or saved; the event is the step's only output; the next event is the next to be stepped. -/
def Obligations.ErrorEntry : Prop :=
  ∀ (s t : State) (d : Diag), step s = .next t → t.out.diag = some d → d.isError = true →
    t.cur = 0#6 ∧ t.out = { diag := some d } ∧ t.inputs = s.inputs.tail ∧ t.freeIdx = s.freeIdx ∧
    (∀ i : Fin 32, i.val ≠ s.cur.toNat → t.buf.get i = s.buf.get i)

/-- `FrameValid` accompanies every `frame_out` and occurs in no other step (R94): over any trace from any state the
`FrameValid` events, the frames and the records are equally many. -/
def Obligations.FrameValidCountsFrames : Prop :=
  ∀ (s : State) (tr : List Event),
    (∀ o ∈ traceOutputs s tr, o.diag = some .frameValid ↔ o.frame ≠ none) ∧
    (diagsOf (traceOutputs s tr)).count .frameValid = (framesOf (traceOutputs s tr)).length ∧
    (recordsOf (traceOutputs s tr)).length = (framesOf (traceOutputs s tr)).length

/-! ### Traces -/

/-- The state and the outputs after a step depend on the cursor, the cells and the event alone: not on the events still
pending behind it, so not on how the bytes were grouped, and not on what the step before output (40_frame_assembler.md
R50, 20_memory.md R27). The free cells after `RST` also depend on the model's own counter (log entry 4). From a cursor
in 32..63 both steps are refused alike (30_encoding.md R37, 92_eei_decisions.md D27; log entry 6). -/
def Obligations.StepDependsOnDataAndEvent : Prop :=
  ∀ (s₁ s₂ : State) (e : Event) (r₁ r₂ : List Event), s₁.inputs = e :: r₁ → s₂.inputs = e :: r₂ →
    s₁.cur = s₂.cur → s₁.buf = s₂.buf → s₁.freeIdx = s₂.freeIdx →
    (s₁.cur.toNat < 32 → ∃ t₁ t₂, step s₁ = .next t₁ ∧ step s₂ = .next t₂ ∧ t₁.cur = t₂.cur ∧ t₁.buf = t₂.buf ∧
      t₁.out = t₂.out ∧ t₁.freeIdx = t₂.freeIdx ∧ t₁.inputs = r₁ ∧ t₂.inputs = r₂) ∧
    (32 ≤ s₁.cur.toNat → ∃ r, step s₁ = .refused r ∧ step s₂ = .refused r)

/-- A trace that is pending is run by that many steps: the machine's run from a state with the trace pending ends where
the fold over the trace ends (R27). -/
def Obligations.PendingTraceIsRun : Prop :=
  ∀ (s : State) (tr : List Event),
    Host.Core.run Sys2Proof.core tr.length { s with inputs := tr } = traceEnd { s with inputs := [] } tr

/-- A `POLL` changes nothing but the bytes sent (42_command_encoder.md R85, R86): with every `POLL` removed from a trace,
the final cursor and cells and the diagnostics, frames and records are the same, and what was sent is one command and
flush for each `POLL`. That each sends the whole command and its flush is the spec's decision D12 (log entry 12). -/
def Obligations.PollsDoNotInterfere : Prop :=
  ∀ (s t : State) (tr : List Event), traceEnd s tr = .next t →
    ∃ t', traceEnd s (tr.filter (fun e => decide (e ≠ .poll))) = .next t' ∧ t'.cur = t.cur ∧ t'.buf = t.buf ∧
      diagsOf (traceOutputs s (tr.filter (fun e => decide (e ≠ .poll)))) = diagsOf (traceOutputs s tr) ∧
      framesOf (traceOutputs s (tr.filter (fun e => decide (e ≠ .poll)))) = framesOf (traceOutputs s tr) ∧
      recordsOf (traceOutputs s (tr.filter (fun e => decide (e ≠ .poll)))) = recordsOf (traceOutputs s tr) ∧
      sinkOpsOf (traceOutputs s tr) = (List.replicate (tr.count .poll) [SinkOp.write pollCommand, .flush]).flatten

/-- The cells from the cursor on are unobservable (10_state.md R11, R17): two states with the same cursor and the same
cells below it answer every trace with the same outputs, and end with the same data again. -/
def Obligations.StaleCellsUnobservable : Prop :=
  ∀ (tr : List Event) (s t : State), s.cur.toNat < 32 → s.Agrees t →
    traceOutputs s tr = traceOutputs t tr ∧
    ∃ s' t', traceEnd s tr = .next s' ∧ traceEnd t tr = .next t' ∧ s'.Agrees t'

/-- Every RawFrame is accepted (40_frame_assembler.md R52): fed from Empty, its 32 bytes give no output for 31 steps and
then `FrameValid`, that frame and its record, and the cursor is 0. That all of it is out after these 32 bytes is the
spec's decisions D3 and D11 (log entry 13). -/
def Obligations.EveryRawFrameAccepted : Prop :=
  ∀ (s : State) (f : Frame), s.cur = 0#6 → isRawFrame f = true →
    traceOutputs s (rxs f.toList) = List.replicate 31 ({ } : Output) ++
      [{ diag := some .frameValid, frame := some f, telemetry := (decodeRecord f).port }] ∧
    ∃ t, traceEnd s (rxs f.toList) = .next t ∧ t.cur = 0#6

/-- A frame with good headers and a wrong last byte is discarded (R48, R51): 31 steps without output, then
`ChecksumError`, and the cursor is 0. That `ChecksumError` comes in the 32nd byte's step is the spec's decision D3 (log
entry 13). -/
def Obligations.BadChecksumDiscarded : Prop :=
  ∀ (s : State) (f : Frame), s.cur = 0#6 → hasHeader f = true → f.get 31 ≠ xor31 f →
    traceOutputs s (rxs f.toList) = List.replicate 31 ({ } : Output) ++ [{ diag := some .checksumError }] ∧
    ∃ t, traceEnd s (rxs f.toList) = .next t ∧ t.cur = 0#6

/-- What is emitted for a stream (R52, R51): a frame reported at byte `i` of the stream is a RawFrame and is exactly the
32 bytes of the stream that end there; two frames of a stream never overlap. That a frame is output at its own last byte
is the spec's decision D3 (log entry 13). -/
def Obligations.FramesAreRunsOfTheStream : Prop :=
  ∀ (s : State) (bs : List Byte), s.cur = 0#6 →
    (∀ (i : Nat) (o : Output) (f : Frame), (traceOutputs s (rxs bs))[i]? = some o → o.frame = some f →
      isRawFrame f = true ∧ 31 ≤ i ∧ f.toList = (bs.drop (i - 31)).take 32) ∧
    (∀ (i j : Nat) (o p : Output), (traceOutputs s (rxs bs))[i]? = some o → (traceOutputs s (rxs bs))[j]? = some p →
      o.frame ≠ none → p.frame ≠ none → i < j → i + 32 ≤ j)

/-- Single-bit errors (R53): a RawFrame with one bit flipped, fed from Empty, gives no frame; a flip in bytes 2 to 31
gives exactly one event, `ChecksumError`, and ends in Empty; in byte 1 the first event is `HeaderError`; in byte 0 the
first two bytes give `SyncError`. That `ChecksumError` is out after these 32 bytes is the spec's decision D3 (log entry
13). -/
def Obligations.SingleBitErrorsRejected : Prop :=
  ∀ (s : State) (f g : Frame) (i : Fin 32) (j : Nat), s.cur = 0#6 → isRawFrame f = true → j < 8 →
    g = f.setIfInBounds i.val (f.get i ^^^ (1#8 <<< j)) →
    framesOf (traceOutputs s (rxs g.toList)) = [] ∧
    (2 ≤ i.val → diagsOf (traceOutputs s (rxs g.toList)) = [.checksumError] ∧
      ∃ t, traceEnd s (rxs g.toList) = .next t ∧ t.cur = 0#6) ∧
    (i.val = 1 → (traceOutputs s (rxs g.toList)).take 2 = [({ } : Output), { diag := some .headerError }]) ∧
    (i.val = 0 → (traceOutputs s (rxs g.toList)).take 2 = [{ diag := some .syncError }, { diag := some .syncError }])

/-- Two flips of one bit position in two different bytes cancel and are not detected (R53). -/
def Obligations.DoubleFlipUndetected : Prop :=
  ∀ (f g : Frame) (i k : Fin 32) (j : Nat), isRawFrame f = true → i ≠ k → 2 ≤ i.val → 2 ≤ k.val → j < 8 →
    g = (f.setIfInBounds i.val (f.get i ^^^ (1#8 <<< j))).setIfInBounds k.val (f.get k ^^^ (1#8 <<< j)) →
    isRawFrame g = true ∧ g ≠ f

/-- Rotation (70_reset_and_hazards.md R117): a RawFrame that holds the header pair at offset `j`, rotated left by `j`, is
again a RawFrame. -/
def Obligations.RotatedFrameStillValid : Prop :=
  ∀ (f g : Frame) (j : Fin 31), isRawFrame f = true → f.get ⟨j.val, by omega⟩ = 0xB1#8 →
    f.get ⟨j.val + 1, by omega⟩ = 0xB7#8 →
    g.toList = f.toList.drop j.val ++ f.toList.take j.val → isRawFrame g = true

/-- A stray 0xB1 directly before a frame loses the frame (R114): with no further 0xB1 in it, the frame's own header byte
gives `HeaderError`, its other 31 bytes `SyncError` each, no frame is emitted, and the cursor is 0. -/
def Obligations.StrayHeaderLosesTheFrame : Prop :=
  ∀ (s : State) (f : Frame), s.cur = 0#6 → isRawFrame f = true → (∀ i : Fin 32, 1 ≤ i.val → f.get i ≠ 0xB1#8) →
    traceOutputs s (rxs (0xB1#8 :: f.toList)) =
      ({ } : Output) :: { diag := some .headerError } :: List.replicate 31 { diag := some .syncError } ∧
    ∃ t, traceEnd s (rxs (0xB1#8 :: f.toList)) = .next t ∧ t.cur = 0#6

/-- A truncated response stays in the buffer (R115, R116): from cursor n, 2 <= n, up to 31 - n further bytes, whatever
they are and whatever polls come between, are only appended; nothing but the polls gives an output. -/
def Obligations.PartialFrameOnlyGrows : Prop :=
  ∀ (s : State) (tr : List Event), 2 ≤ s.cur.toNat → .rst ∉ tr →
    s.cur.toNat + (tr.filter (fun e => decide (e ≠ .poll))).length ≤ 31 →
    diagsOf (traceOutputs s tr) = [] ∧ framesOf (traceOutputs s tr) = [] ∧
    ∃ t, traceEnd s tr = .next t ∧
      t.cur.toNat = s.cur.toNat + (tr.filter (fun e => decide (e ≠ .poll))).length ∧
      (∀ i : Fin 32, i.val < s.cur.toNat → t.buf.get i = s.buf.get i)

/-- A byte and a poll in one cycle of the recommended rendering (60_exceptions.md R95, 70_reset_and_hazards.md R122): the
order of the two steps shows neither at the ports nor in the cursor and the cells; `rst` overrides both. -/
def Obligations.CycleOrderUnobservable : Prop :=
  ∀ (s : State) (b : Byte), s.cur.toNat < 32 →
    portsOf (traceOutputs s [.rx b, .poll]) = portsOf (traceOutputs s [.poll, .rx b]) ∧
    (∃ t t', traceEnd s [.rx b, .poll] = .next t ∧ traceEnd s [.poll, .rx b] = .next t' ∧ t.cur = t'.cur ∧
      t.buf = t'.buf) ∧
    PortsIn.events { rst := true, rxValid := true, rxData := b, poll := true } = [.rst]

/-- The pseudo-operations of the trace notation (30_encoding.md R38, the spec's decision D16): `FRAME` and `BADFRAME`
are 32 received bytes with good headers and the given payload; `FRAME`'s last byte is the checksum, `BADFRAME`'s is the
checksum exclusive-or 0xFF; `RXS` and `RXN` are their bytes. -/
def Obligations.TraceNotationExpands : Prop :=
  (∀ p : Payload, (TraceItem.frame p).expand = rxs (frameOfPayload p).toList ∧ payloadOf (frameOfPayload p) = p ∧
    hasHeader (frameOfPayload p) = true ∧ (frameOfPayload p).get 31 = xor31 (frameOfPayload p)) ∧
  (∀ p : Payload, (TraceItem.badFrame p).expand = rxs (badFrameOfPayload p).toList ∧
    payloadOf (badFrameOfPayload p) = p ∧ hasHeader (badFrameOfPayload p) = true ∧
    (badFrameOfPayload p).get 31 = xor31 (badFrameOfPayload p) ^^^ 0xFF#8 ∧
    isRawFrame (badFrameOfPayload p) = false) ∧
  (∀ l : List Byte, (TraceItem.rxs l).expand = l.map .rx) ∧
  (∀ (n : Nat) (b : Byte), (TraceItem.rxn n b).expand = List.replicate n (.rx b))
end

