-- ==== Sys2Proof/Laws/Operands.lean ====
section
/-! SUPPORT. What the operand-assembly and checksum functions compute. -/

namespace Sys2Proof.Machine

/-! ### Little-endian numbers -/

theorem leNat_lt (l : List Byte) : leNat l < 256 ^ l.length := by
  induction l with
  | nil => simp [leNat]
  | cons b bs ih =>
    have hb : b.toNat < 256 := b.isLt
    simp only [leNat, List.length_cons, Nat.pow_succ]
    omega

/-- Byte `i` of the number is element `i` of the sequence. -/
theorem leNat_byte (l : List Byte) (i : Nat) (h : i < l.length) :
    leNat l / 256 ^ i % 256 = (l[i]'h).toNat := by
  induction l generalizing i with
  | nil => simp at h
  | cons b bs ih =>
    have hb : b.toNat < 256 := b.isLt
    cases i with
    | zero => simp only [leNat, Nat.pow_zero, Nat.div_one, List.getElem_cons_zero]; omega
    | succ i =>
      have h' : i < bs.length := by simpa using h
      have hd : (b.toNat + 256 * leNat bs) / 256 = leNat bs := by omega
      simp only [leNat, List.getElem_cons_succ]
      rw [← ih i h', Nat.pow_succ, Nat.mul_comm (256 ^ i), ← Nat.div_div_eq_div_mul, hd]

theorem frameBits_toNat (f : Frame) : (frameBits f).toNat = leNat f.toList := by
  have h := leNat_lt f.toList
  simp only [Vector.length_toList] at h
  simp only [frameBits, BitVec.toNat_ofNat]
  exact Nat.mod_eq_of_lt (by simpa using h)

/-- Bits `8i+7 : 8i` of `Fv` are byte `i` of the frame (30_encoding.md R36). -/
theorem frameBits_slice (f : Frame) (i : Nat) (h : i < 32) :
    (frameBits f).extractLsb' (8 * i) 8 = f[i] := by
  apply BitVec.eq_of_toNat_eq
  have hb := leNat_byte f.toList i (by simpa using h)
  simp only [BitVec.extractLsb'_toNat, frameBits_toNat, Nat.shiftRight_eq_div_pow]
  rw [Nat.pow_mul]
  simpa using hb

@[simp] theorem frameOfBits_frameBits (f : Frame) : frameOfBits (frameBits f) = f := by
  apply Vector.ext
  intro i h
  simp only [frameOfBits, Vector.getElem_ofFn]
  exact frameBits_slice f i h

/-! ### Field assembly -/

theorem u16le_toNat (f : Frame) (a b : Fin 32) :
    (u16le f a b).toNat = (f.get a).toNat + 256 * (f.get b).toNat := by
  have ha := (f.get a).isLt
  have hb := (f.get b).isLt
  simp only [u16le, BitVec.toNat_add, BitVec.toNat_mul, BitVec.toNat_setWidth, BitVec.toNat_ofNat]
  omega

theorem u24le_toNat (f : Frame) (a b c : Fin 32) :
    (u24le f a b c).toNat = (f.get a).toNat + 256 * (f.get b).toNat + 65536 * (f.get c).toNat := by
  have ha := (f.get a).isLt
  have hb := (f.get b).isLt
  have hc := (f.get c).isLt
  simp only [u24le, BitVec.toNat_add, BitVec.toNat_mul, BitVec.toNat_setWidth, BitVec.toNat_ofNat]
  omega

theorem u32le_toNat (f : Frame) (a b c d : Fin 32) :
    (u32le f a b c d).toNat = (f.get a).toNat + 256 * (f.get b).toNat + 65536 * (f.get c).toNat
      + 16777216 * (f.get d).toNat := by
  have ha := (f.get a).isLt
  have hb := (f.get b).isLt
  have hc := (f.get c).isLt
  have hd := (f.get d).isLt
  simp only [u32le, BitVec.toNat_add, BitVec.toNat_mul, BitVec.toNat_setWidth, BitVec.toNat_ofNat]
  omega

/-! ### The response checksum -/

theorem xorBytes_foldl (l : List Byte) (x : Byte) : l.foldl (fun x y => x ^^^ y) x = x ^^^ xorBytes l := by
  induction l generalizing x with
  | nil => simp [xorBytes]
  | cons b bs ih => simp only [xorBytes, List.foldl_cons]; rw [ih, ih (0#8 ^^^ b)]; simp [BitVec.xor_assoc]

@[simp] theorem xorBytes_nil : xorBytes [] = 0#8 := rfl

@[simp] theorem xorBytes_cons (b : Byte) (l : List Byte) : xorBytes (b :: l) = b ^^^ xorBytes l := by
  simp only [xorBytes, List.foldl_cons]
  rw [xorBytes_foldl]
  simp [xorBytes]

@[simp] theorem xorBytes_append (l m : List Byte) : xorBytes (l ++ m) = xorBytes l ^^^ xorBytes m := by
  induction l with
  | nil => simp
  | cons b bs ih => simp [ih, BitVec.xor_assoc]

/-- Writing a cell the checksum does not cover leaves it alone. -/
theorem xor31_set_last (f : Frame) (b : Byte) : xor31 (f.setIfInBounds 31 b) = xor31 f := by
  have h : (f.toList.set 31 b).take 31 = f.toList.take 31 := by
    rw [List.take_set_of_le]; omega
  simp [xor31, Config.csumLen, h]

/-! ### Frames built from a payload -/

theorem frameHead_get (p : Payload) (i : Nat) (h : i < 31) :
    (frameHead p)[i] = if i = 0 then Config.hdr1 else if i = 1 then Config.hdr2
      else if h2 : 2 ≤ i then p[i - 2]'(by omega) else 0#8 := by
  simp only [frameHead, Vector.getElem_cast, Vector.getElem_append]
  match i, h with
  | 0, _ => rfl
  | 1, _ => rfl
  | i + 2, h => simp

theorem frameOfPayload_head (p : Payload) : (frameOfPayload p).toList.take 31 = (frameHead p).toList := by
  simp [frameOfPayload, Vector.toList_push]

@[simp] theorem xor31_frameOfPayload (p : Payload) : xor31 (frameOfPayload p) = xorBytes (frameHead p).toList := by
  simp only [xor31, Config.csumLen, frameOfPayload_head]

theorem frameOfPayload_get (p : Payload) (i : Nat) (h : i < 31) :
    (frameOfPayload p)[i]'(by omega) = (frameHead p)[i] := by
  simp only [frameOfPayload]
  rw [Vector.getElem_push_lt]

theorem frameOfPayload_last (p : Payload) : (frameOfPayload p).get 31 = xorBytes (frameHead p).toList := by
  change (frameOfPayload p)[31] = _
  simp [frameOfPayload]

@[simp] theorem hasHeader_frameOfPayload (p : Payload) : hasHeader (frameOfPayload p) = true := by
  have h0 : (frameOfPayload p).get 0 = Config.hdr1 := by
    change (frameOfPayload p)[0] = _
    rw [frameOfPayload_get p 0 (by omega), frameHead_get]; rfl
  have h1 : (frameOfPayload p).get 1 = Config.hdr2 := by
    change (frameOfPayload p)[1] = _
    rw [frameOfPayload_get p 1 (by omega), frameHead_get]; rfl
  simp [hasHeader, h0, h1]

@[simp] theorem isRawFrame_frameOfPayload (p : Payload) : isRawFrame (frameOfPayload p) = true := by
  simp [isRawFrame, frameOfPayload_last]

@[simp] theorem payloadOf_frameOfPayload (p : Payload) : payloadOf (frameOfPayload p) = p := by
  apply Vector.ext
  intro i h
  simp only [payloadOf, Vector.getElem_ofFn]
  change (frameOfPayload p)[i + 2] = _
  rw [frameOfPayload_get p (i + 2) (by omega), frameHead_get]
  simp

end Sys2Proof.Machine
end

