-- ==== Sys2Proof/Laws/Decode.lean ====
section
/-! SUPPORT. What the decoder answers on a packed operation word (30_encoding.md R33). -/

namespace Sys2Proof

open Sys2Proof.Machine

theorem packOpw_toNat (ev : BitVec 2) (c : BitVec 6) (b : Byte) :
    (packOpw ev c b).toNat = 16384 * ev.toNat + 256 * c.toNat + b.toNat := by
  simp only [packOpw, BitVec.toNat_append]
  rw [Nat.shiftLeft_eq, Nat.mul_comm, ← Nat.two_pow_add_eq_or_of_lt b.isLt, Nat.shiftLeft_eq, Nat.mul_comm ev.toNat,
    ← Nat.two_pow_add_eq_or_of_lt c.isLt]
  omega

@[simp] theorem packOpw_byte (ev : BitVec 2) (c : BitVec 6) (b : Byte) : (packOpw ev c b).extractLsb' 0 8 = b := by
  apply BitVec.eq_of_toNat_eq
  have hb := b.isLt
  simp only [BitVec.extractLsb'_toNat, packOpw_toNat, Nat.shiftRight_zero]
  omega

@[simp] theorem packOpw_cur (ev : BitVec 2) (c : BitVec 6) (b : Byte) : (packOpw ev c b).extractLsb' 8 6 = c := by
  apply BitVec.eq_of_toNat_eq
  have hb := b.isLt
  have hc := c.isLt
  simp only [BitVec.extractLsb'_toNat, packOpw_toNat, Nat.shiftRight_eq_div_pow]
  omega

@[simp] theorem packOpw_ev (ev : BitVec 2) (c : BitVec 6) (b : Byte) : (packOpw ev c b).extractLsb' 14 2 = ev := by
  apply BitVec.eq_of_toNat_eq
  have hb := b.isLt
  have hc := c.isLt
  have he := ev.isLt
  simp only [BitVec.extractLsb'_toNat, packOpw_toNat, Nat.shiftRight_eq_div_pow]
  omega

/-- The three fields of an operation word are independent. -/
theorem packOpw_inj (ev ev' : BitVec 2) (c c' : BitVec 6) (b b' : Byte) :
    packOpw ev c b = packOpw ev' c' b' ↔ ev = ev' ∧ c = c' ∧ b = b' := by
  constructor
  · intro h
    have h1 := congrArg (fun w => w.extractLsb' 14 2) h
    have h2 := congrArg (fun w => w.extractLsb' 8 6) h
    have h3 := congrArg (fun w => w.extractLsb' 0 8) h
    simp only [packOpw_ev, packOpw_cur, packOpw_byte] at h1 h2 h3
    exact ⟨h1, h2, h3⟩
  · rintro ⟨rfl, rfl, rfl⟩; rfl

/-- Masking acts field by field. -/
theorem packOpw_and (ev ev' : BitVec 2) (c c' : BitVec 6) (b b' : Byte) :
    packOpw ev c b &&& packOpw ev' c' b' = packOpw (ev &&& ev') (c &&& c') (b &&& b') := by
  have h : ((ev ++ c) ++ b) &&& ((ev' ++ c') ++ b') = ((ev &&& ev') ++ (c &&& c')) ++ (b &&& b') := by
    rw [BitVec.and_append, BitVec.and_append]
  exact h

theorem and_evOnes (ev : BitVec 2) : ev &&& 3#2 = ev := by revert ev; decide

theorem and_curOnes (c : BitVec 6) : c &&& 63#6 = c := by revert c; decide

theorem packOpw_eventMask (ev : BitVec 2) (c : BitVec 6) (b : Byte) :
    packOpw ev c b &&& 0xC000#16 = packOpw ev 0#6 0#8 := by
  rw [show 0xC000#16 = packOpw 3#2 0#6 0#8 from rfl, packOpw_and, and_evOnes, BitVec.and_zero, BitVec.and_zero]

theorem packOpw_byteMask (ev : BitVec 2) (c : BitVec 6) (b : Byte) :
    packOpw ev c b &&& 0xFFFF#16 = packOpw ev c b := by
  rw [show (0xFFFF#16) = BitVec.allOnes 16 from rfl, BitVec.and_allOnes]

theorem packOpw_curMask (ev : BitVec 2) (c : BitVec 6) (b : Byte) :
    packOpw ev c b &&& 0xFF00#16 = packOpw ev c 0#8 := by
  rw [show 0xFF00#16 = packOpw 3#2 63#6 0#8 from rfl, packOpw_and, and_evOnes, and_curOnes, BitVec.and_zero]

theorem packOpw_fillMask (ev : BitVec 2) (c : BitVec 6) (b : Byte) :
    packOpw ev c b &&& 0xE000#16 = packOpw ev (c &&& 0x20#6) 0#8 := by
  rw [show 0xE000#16 = packOpw 3#2 0x20#6 0#8 from rfl, packOpw_and, and_evOnes, BitVec.and_zero]

theorem and32_eq_zero (c : BitVec 6) : c &&& 0x20#6 = 0#6 ↔ c.toNat < 32 := by
  revert c; decide

/-- `RST`: the `cur` and `b` bits are ignored (R33 row 1). -/
theorem decodeOpw_rst (c : BitVec 6) (b x : Byte) : decodeOpw (packOpw 2#2 c b) x = .ok .rst := by
  simp only [decodeOpw, packOpw_eventMask]
  exact if_pos rfl

/-- `POLL`: the `cur` and `b` bits are ignored (R33 row 2). -/
theorem decodeOpw_poll (c : BitVec 6) (b x : Byte) : decodeOpw (packOpw 1#2 c b) x = .ok .poll := by
  simp only [decodeOpw, packOpw_eventMask]
  rw [if_neg (by decide)]
  exact if_pos rfl

/-- `ev = 3` is refused (R37). -/
theorem decodeOpw_reserved (c : BitVec 6) (b x : Byte) : decodeOpw (packOpw 3#2 c b) x = .error .reservedEvent := by
  simp only [decodeOpw, packOpw_eventMask, packOpw_byteMask, packOpw_curMask, packOpw_fillMask]
  rw [show (0x8000#16) = packOpw 2#2 0#6 0#8 from rfl, show (0x4000#16) = packOpw 1#2 0#6 0#8 from rfl,
    show (0x00B1#16) = packOpw 0#2 0#6 0xB1#8 from rfl, show (0x0000#16) = packOpw 0#2 0#6 0#8 from rfl,
    show (0x01B7#16) = packOpw 0#2 1#6 0xB7#8 from rfl, show (0x0100#16) = packOpw 0#2 1#6 0#8 from rfl,
    show (0x1F00#16) = packOpw 0#2 31#6 0#8 from rfl, show (0xC000#16) = packOpw 3#2 0#6 0#8 from rfl]
  simp [packOpw_inj]

/-- What an `RX` operation word selects, by cursor and byte (30_encoding.md R39). -/
def rxChoice (c : BitVec 6) (b x : Byte) : Except Reject Instr :=
  if c = 0#6 then (if b = Config.hdr1 then .ok .rxSyncHit else .ok (.rxSyncMiss b))
  else if c = 1#6 then (if b = Config.hdr2 then .ok .rxHdr2Hit else .ok (.rxHdr2Miss b))
  else if c = 31#6 then (if b = x then .ok (.rxLastOk b) else .ok (.rxLastBad b))
  else if c.toNat < 32 then .ok (.rxFill c b)
  else .error .cursorUnreachable

theorem decodeOpw_rx (c : BitVec 6) (b x : Byte) : decodeOpw (packOpw 0#2 c b) x = rxChoice c b x := by
  simp only [decodeOpw, packOpw_eventMask, packOpw_byteMask, packOpw_curMask, packOpw_fillMask, packOpw_byte,
    packOpw_cur]
  rw [show (0x8000#16) = packOpw 2#2 0#6 0#8 from rfl, show (0x4000#16) = packOpw 1#2 0#6 0#8 from rfl,
    show (0x00B1#16) = packOpw 0#2 0#6 0xB1#8 from rfl, show (0x0000#16) = packOpw 0#2 0#6 0#8 from rfl,
    show (0x01B7#16) = packOpw 0#2 1#6 0xB7#8 from rfl, show (0x0100#16) = packOpw 0#2 1#6 0#8 from rfl,
    show (0x1F00#16) = packOpw 0#2 31#6 0#8 from rfl, show (0xC000#16) = packOpw 3#2 0#6 0#8 from rfl]
  have h20 := and32_eq_zero c
  simp only [packOpw_inj, rxChoice, Config.hdr1, Config.hdr2]
  by_cases h0 : c = 0#6
  · subst h0; by_cases hb : b = 0xB1#8 <;> simp [hb]
  · by_cases h1 : c = 1#6
    · subst h1; by_cases hb : b = 0xB7#8 <;> simp [hb]
    · by_cases h31 : c = 31#6
      · subst h31; by_cases hb : b = x <;> simp [hb]
      · simp [h0, h1, h31, h20]

end Sys2Proof
end

