-- ==== Sys2Proof/Laws/State.lean ====
section
/-! SUPPORT. One lemma per field of State per update. -/

namespace Sys2Proof.Machine

@[simp] theorem State.setCur_cur (s : State) (c : BitVec 6) : (s.setCur c).cur = c := rfl
@[simp] theorem State.setCur_buf (s : State) (c : BitVec 6) : (s.setCur c).buf = s.buf := rfl
@[simp] theorem State.setCur_inputs (s : State) (c : BitVec 6) : (s.setCur c).inputs = s.inputs := rfl
@[simp] theorem State.setCur_out (s : State) (c : BitVec 6) : (s.setCur c).out = s.out := rfl
@[simp] theorem State.setCur_freeIdx (s : State) (c : BitVec 6) : (s.setCur c).freeIdx = s.freeIdx := rfl

@[simp] theorem State.append_cur (s : State) (b : Byte) : (s.append b).cur = s.cur := rfl
@[simp] theorem State.append_buf (s : State) (b : Byte) : (s.append b).buf = s.buf.setIfInBounds s.cur.toNat b := rfl
@[simp] theorem State.append_inputs (s : State) (b : Byte) : (s.append b).inputs = s.inputs := rfl
@[simp] theorem State.append_out (s : State) (b : Byte) : (s.append b).out = s.out := rfl
@[simp] theorem State.append_freeIdx (s : State) (b : Byte) : (s.append b).freeIdx = s.freeIdx := rfl

@[simp] theorem State.beginStep_cur (s : State) : (s.beginStep).cur = s.cur := rfl
@[simp] theorem State.beginStep_buf (s : State) : (s.beginStep).buf = s.buf := rfl
@[simp] theorem State.beginStep_inputs (s : State) : (s.beginStep).inputs = s.inputs := rfl
@[simp] theorem State.beginStep_out (s : State) : (s.beginStep).out = ({ } : Output) := rfl
@[simp] theorem State.beginStep_freeIdx (s : State) : (s.beginStep).freeIdx = s.freeIdx := rfl

@[simp] theorem State.emitDiag_cur (s : State) (d : Diag) : (s.emitDiag d).cur = s.cur := rfl
@[simp] theorem State.emitDiag_buf (s : State) (d : Diag) : (s.emitDiag d).buf = s.buf := rfl
@[simp] theorem State.emitDiag_inputs (s : State) (d : Diag) : (s.emitDiag d).inputs = s.inputs := rfl
@[simp] theorem State.emitDiag_out (s : State) (d : Diag) : (s.emitDiag d).out = ({ s.out with diag := some d } : Output) := rfl
@[simp] theorem State.emitDiag_freeIdx (s : State) (d : Diag) : (s.emitDiag d).freeIdx = s.freeIdx := rfl

@[simp] theorem State.emitFrame_cur (s : State) (f : Frame) : (s.emitFrame f).cur = s.cur := rfl
@[simp] theorem State.emitFrame_buf (s : State) (f : Frame) : (s.emitFrame f).buf = s.buf := rfl
@[simp] theorem State.emitFrame_inputs (s : State) (f : Frame) : (s.emitFrame f).inputs = s.inputs := rfl
@[simp] theorem State.emitFrame_out (s : State) (f : Frame) : (s.emitFrame f).out = ({ s.out with frame := some f } : Output) := rfl
@[simp] theorem State.emitFrame_freeIdx (s : State) (f : Frame) : (s.emitFrame f).freeIdx = s.freeIdx := rfl

@[simp] theorem State.emitTx_cur (s : State) (c : Command) : (s.emitTx c).cur = s.cur := rfl
@[simp] theorem State.emitTx_buf (s : State) (c : Command) : (s.emitTx c).buf = s.buf := rfl
@[simp] theorem State.emitTx_inputs (s : State) (c : Command) : (s.emitTx c).inputs = s.inputs := rfl
@[simp] theorem State.emitTx_out (s : State) (c : Command) : (s.emitTx c).out = ({ s.out with tx := [.write c, .flush] } : Output) := rfl
@[simp] theorem State.emitTx_freeIdx (s : State) (c : Command) : (s.emitTx c).freeIdx = s.freeIdx := rfl

@[simp] theorem State.setTelemetry_cur (s : State) (p : TelemetryPort) : (s.setTelemetry p).cur = s.cur := rfl
@[simp] theorem State.setTelemetry_buf (s : State) (p : TelemetryPort) : (s.setTelemetry p).buf = s.buf := rfl
@[simp] theorem State.setTelemetry_inputs (s : State) (p : TelemetryPort) : (s.setTelemetry p).inputs = s.inputs := rfl
@[simp] theorem State.setTelemetry_out (s : State) (p : TelemetryPort) : (s.setTelemetry p).out = ({ s.out with telemetry := p } : Output) := rfl
@[simp] theorem State.setTelemetry_freeIdx (s : State) (p : TelemetryPort) : (s.setTelemetry p).freeIdx = s.freeIdx := rfl

@[simp] theorem State.forgetBuf_cur (s : State) : (s.forgetBuf).cur = s.cur := by
  unfold State.forgetBuf; rfl
@[simp] theorem State.forgetBuf_buf (s : State) : (s.forgetBuf).buf = unspecifiedBuf s.freeIdx := by
  unfold State.forgetBuf; rfl
@[simp] theorem State.forgetBuf_inputs (s : State) : (s.forgetBuf).inputs = s.inputs := by
  unfold State.forgetBuf; rfl
@[simp] theorem State.forgetBuf_out (s : State) : (s.forgetBuf).out = s.out := by
  unfold State.forgetBuf; rfl
@[simp] theorem State.forgetBuf_freeIdx (s : State) : (s.forgetBuf).freeIdx = s.freeIdx + 1 := by
  unfold State.forgetBuf; rfl

@[simp] theorem State.raise_cur (s : State) (d : Diag) : (s.raise d).cur = 0#6 := rfl
@[simp] theorem State.raise_buf (s : State) (d : Diag) : (s.raise d).buf = s.buf := rfl
@[simp] theorem State.raise_inputs (s : State) (d : Diag) : (s.raise d).inputs = s.inputs := rfl
@[simp] theorem State.raise_out (s : State) (d : Diag) : (s.raise d).out = ({ s.out with diag := some d } : Output) := rfl
@[simp] theorem State.raise_freeIdx (s : State) (d : Diag) : (s.raise d).freeIdx = s.freeIdx := rfl

@[simp] theorem State.popInput_cur (s : State) : (s.popInput).cur = s.cur := rfl
@[simp] theorem State.popInput_buf (s : State) : (s.popInput).buf = s.buf := rfl
@[simp] theorem State.popInput_inputs (s : State) : (s.popInput).inputs = s.inputs.tail := rfl
@[simp] theorem State.popInput_out (s : State) : (s.popInput).out = s.out := rfl
@[simp] theorem State.popInput_freeIdx (s : State) : (s.popInput).freeIdx = s.freeIdx := rfl

@[simp] theorem State.idle_cur (s : State) : (s.idle).cur = s.cur := rfl
@[simp] theorem State.idle_buf (s : State) : (s.idle).buf = s.buf := rfl
@[simp] theorem State.idle_inputs (s : State) : (s.idle).inputs = s.inputs := rfl
@[simp] theorem State.idle_out (s : State) : (s.idle).out = ({ } : Output) := rfl
@[simp] theorem State.idle_freeIdx (s : State) : (s.idle).freeIdx = s.freeIdx := rfl

@[simp] theorem State.offer_cur (s : State) (e : Event) : (s.offer e).cur = s.cur := rfl
@[simp] theorem State.offer_buf (s : State) (e : Event) : (s.offer e).buf = s.buf := rfl
@[simp] theorem State.offer_inputs (s : State) (e : Event) : (s.offer e).inputs = e :: s.inputs := rfl
@[simp] theorem State.offer_out (s : State) (e : Event) : (s.offer e).out = s.out := rfl
@[simp] theorem State.offer_freeIdx (s : State) (e : Event) : (s.offer e).freeIdx = s.freeIdx := rfl

end Sys2Proof.Machine
end

