-- ==== Sys2Proof/Laws/Exec.lean ====
section
/-! SUPPORT. For each meaning, everything it can do: if it answers a next state, what selected it and what the state is. -/

namespace Sys2Proof.Machine

theorem whenSelected_next (c : Prop) [Decidable c] (t u : State) :
    whenSelected c t = .next u ↔ c ∧ u = t := by
  by_cases h : c <;> simp [whenSelected, h, eq_comm]

theorem whenReachable_next (s t u : State) : whenReachable s t = .next u ↔ s.cur.toNat < 32 ∧ u = t := by
  by_cases h : s.cur.toNat < 32 <;> simp [whenReachable, h, eq_comm]

theorem whenReachable_of_lt {s : State} (t : State) (h : s.cur.toNat < 32) : whenReachable s t = .next t :=
  (whenReachable_next s t t).mpr ⟨h, rfl⟩

theorem whenReachable_of_ge {s : State} (t : State) (h : 32 ≤ s.cur.toNat) :
    whenReachable s t = .refused (.undecodable .cursorUnreachable) :=
  if_neg (by omega)

/-! ### Reset and the encoder -/

theorem execRst_next {s t : State} (h : execRst s = .next t) :
    s.cur.toNat < 32 ∧ t = (s.beginStep.setCur 0#6).forgetBuf :=
  (whenReachable_next _ _ _).mp h

theorem execPoll_next {s t : State} (h : execPoll s = .next t) :
    s.cur.toNat < 32 ∧ t = s.beginStep.emitTx pollCommand :=
  (whenReachable_next _ _ _).mp h

/-! ### The decoder -/

/-- The 14 assignments of R60 put exactly the record `decodeRecord f` into the telemetry port. -/
theorem decodePort_eq (f : Frame) : decodePort f = (decodeRecord f).port := rfl

theorem emitDecode_eq (f : Frame) (s : State) : emitDecode f s = s.setTelemetry (decodeRecord f).port := by
  rw [emitDecode, decodePort_eq]

@[simp] theorem record_port (r : TelemetryRecord) : r.port.record = some r := rfl

@[simp] theorem record_absent : ({ } : TelemetryPort).record = none := rfl

@[simp] theorem port_ne_absent (r : TelemetryRecord) : r.port ≠ { } := by
  intro h
  have := congrArg TelemetryPort.record h
  simp at this

theorem execDecode_next {f : Frame} {s t : State} (h : execDecode f s = .next t) :
    t = s.setTelemetry (decodeRecord f).port := by
  simp only [execDecode, Host.Outcome.next.injEq, emitDecode_eq] at h
  exact h.symm

/-! ### The assembler -/

theorem execRxSyncMiss_next {b : Byte} {s t : State} (h : execRxSyncMiss b s = .next t) :
    (s.cur = 0#6 ∧ b ≠ Config.hdr1) ∧ t = (rxCommon b s).raise .syncError :=
  (whenSelected_next _ _ _).mp h

theorem execRxSyncHit_next {s t : State} (h : execRxSyncHit s = .next t) :
    s.cur = 0#6 ∧ t = (rxCommon Config.hdr1 s).setCur 1#6 :=
  (whenSelected_next _ _ _).mp h

theorem execRxHdr2Miss_next {b : Byte} {s t : State} (h : execRxHdr2Miss b s = .next t) :
    (s.cur = 1#6 ∧ b ≠ Config.hdr2) ∧ t = (rxCommon b s).raise .headerError :=
  (whenSelected_next _ _ _).mp h

theorem execRxHdr2Hit_next {s t : State} (h : execRxHdr2Hit s = .next t) :
    s.cur = 1#6 ∧ t = (rxCommon Config.hdr2 s).setCur 2#6 :=
  (whenSelected_next _ _ _).mp h

theorem execRxFill_next {c : BitVec 6} {b : Byte} {s t : State} (h : execRxFill c b s = .next t) :
    (s.cur = c ∧ 2 ≤ c.toNat ∧ c.toNat ≤ 30) ∧ t = (rxCommon b s).setCur (s.cur + 1#6) :=
  (whenSelected_next _ _ _).mp h

theorem execRxLastOk_next {b : Byte} {s t : State} (h : execRxLastOk b s = .next t) :
    (s.cur = 31#6 ∧ b = xor31 s.buf) ∧ t = emitCompleted (rxCommon b s) :=
  (whenSelected_next _ _ _).mp h

theorem execRxLastBad_next {b : Byte} {s t : State} (h : execRxLastBad b s = .next t) :
    (s.cur = 31#6 ∧ b ≠ xor31 s.buf) ∧ t = (rxCommon b s).raise .checksumError :=
  (whenSelected_next _ _ _).mp h

/-! ### What the shared pieces leave in each field -/

@[simp] theorem rxCommon_cur (b : Byte) (s : State) : (rxCommon b s).cur = s.cur := rfl
@[simp] theorem rxCommon_buf (b : Byte) (s : State) : (rxCommon b s).buf = s.buf.setIfInBounds s.cur.toNat b := rfl
@[simp] theorem rxCommon_inputs (b : Byte) (s : State) : (rxCommon b s).inputs = s.inputs := rfl
@[simp] theorem rxCommon_out (b : Byte) (s : State) : (rxCommon b s).out = { } := rfl
@[simp] theorem rxCommon_freeIdx (b : Byte) (s : State) : (rxCommon b s).freeIdx = s.freeIdx := rfl

@[simp] theorem emitCompleted_cur (s : State) : (emitCompleted s).cur = 0#6 := rfl
@[simp] theorem emitCompleted_buf (s : State) : (emitCompleted s).buf = s.buf := rfl
@[simp] theorem emitCompleted_inputs (s : State) : (emitCompleted s).inputs = s.inputs := rfl
@[simp] theorem emitCompleted_freeIdx (s : State) : (emitCompleted s).freeIdx = s.freeIdx := rfl
theorem emitCompleted_out (s : State) : (emitCompleted s).out =
    { s.out with diag := some .frameValid, frame := some s.buf, telemetry := (decodeRecord s.buf).port } := rfl

/-- A cell after the append: the incoming byte at the cursor, the old byte elsewhere (R41). -/
theorem append_cell (buf : Vector Byte 32) (c : Nat) (b : Byte) (i : Fin 32) :
    (buf.setIfInBounds c b).get i = if i.val = c then b else buf.get i := by
  change (buf.setIfInBounds c b)[i.val] = if i.val = c then b else buf[i.val]
  rw [Vector.getElem_setIfInBounds]
  by_cases h : c = i.val <;> simp [h, eq_comm]

end Sys2Proof.Machine
end

