-- ==== Sys2Proof/Laws/PerInstr.lean ====
section
/-! SUPPORT. Family RoundTrip: decoding the code word of a well-formed instruction, in a state whose checksum byte
meets the row's condition, gives the instruction back. -/

namespace Sys2Proof.Laws.RoundTrip

open Sys2Proof.Machine

/-- The statement about one instruction. -/
def Statement (i : Instr) : Prop :=
  ∀ check : Byte, i.wf = true → i.condHolds check = true → Sys2Proof.decode (encode i) check = .ok i

theorem rst : Statement .rst := fun _ _ _ => by
  simp [Sys2Proof.decode, encode, decodeOpw_rst]
theorem poll : Statement .poll := fun _ _ _ => by
  simp [Sys2Proof.decode, encode, decodeOpw_poll]
theorem rxSyncHit : Statement .rxSyncHit := fun _ _ _ => by
  simp [Sys2Proof.decode, encode, decodeOpw_rx, rxChoice]
theorem rxSyncMiss (b : Byte) : Statement (.rxSyncMiss b) := fun _ h _ => by
  simp only [Instr.wf, bne_iff_ne] at h
  simp [Sys2Proof.decode, encode, decodeOpw_rx, rxChoice, h]
theorem rxHdr2Hit : Statement .rxHdr2Hit := fun _ _ _ => by
  simp [Sys2Proof.decode, encode, decodeOpw_rx, rxChoice]
theorem rxHdr2Miss (b : Byte) : Statement (.rxHdr2Miss b) := fun _ h _ => by
  simp only [Instr.wf, bne_iff_ne] at h
  simp [Sys2Proof.decode, encode, decodeOpw_rx, rxChoice, h]
theorem rxLastOk (b : Byte) : Statement (.rxLastOk b) := fun _ _ h => by
  simp only [Instr.condHolds, beq_iff_eq] at h
  simp [Sys2Proof.decode, encode, decodeOpw_rx, rxChoice, h]
theorem rxLastBad (b : Byte) : Statement (.rxLastBad b) := fun _ _ h => by
  simp only [Instr.condHolds, bne_iff_ne] at h
  simp [Sys2Proof.decode, encode, decodeOpw_rx, rxChoice, h]
theorem rxFill (c : BitVec 6) (b : Byte) : Statement (.rxFill c b) := fun _ h _ => by
  simp only [Instr.wf, decide_eq_true_eq] at h
  have h0 : c ≠ 0#6 := by rintro rfl; simp at h
  have h1 : c ≠ 1#6 := by rintro rfl; simp at h
  have h31 : c ≠ 31#6 := by rintro rfl; simp at h
  have h32 : c.toNat < 32 := by omega
  simp [Sys2Proof.decode, encode, decodeOpw_rx, rxChoice, h0, h1, h31, h32]
theorem decode (f : Frame) : Statement (.decode f) := fun _ h _ => by
  simp only [Instr.wf] at h
  simp [Sys2Proof.decode, encode, decodeResp32, h]
theorem fldSolarVoltage1 (f : Frame) : Statement (.fldSolarVoltage1 f) := fun _ _ _ => by
  simp [Sys2Proof.decode, encode, decodeResp32]
theorem fldSolarCurrent (f : Frame) : Statement (.fldSolarCurrent f) := fun _ _ _ => by
  simp [Sys2Proof.decode, encode, decodeResp32]
theorem fldSolarVoltage2 (f : Frame) : Statement (.fldSolarVoltage2 f) := fun _ _ _ => by
  simp [Sys2Proof.decode, encode, decodeResp32]
theorem fldLineVoltage (f : Frame) : Statement (.fldLineVoltage f) := fun _ _ _ => by
  simp [Sys2Proof.decode, encode, decodeResp32]
theorem fldLineCurrent (f : Frame) : Statement (.fldLineCurrent f) := fun _ _ _ => by
  simp [Sys2Proof.decode, encode, decodeResp32]
theorem fldTemperature (f : Frame) : Statement (.fldTemperature f) := fun _ _ _ => by
  simp [Sys2Proof.decode, encode, decodeResp32]
theorem fldEnergyToday (f : Frame) : Statement (.fldEnergyToday f) := fun _ _ _ => by
  simp [Sys2Proof.decode, encode, decodeResp32]
theorem fldEnergyTotal (f : Frame) : Statement (.fldEnergyTotal f) := fun _ _ _ => by
  simp [Sys2Proof.decode, encode, decodeResp32]
theorem fldFaultCode (f : Frame) : Statement (.fldFaultCode f) := fun _ _ _ => by
  simp [Sys2Proof.decode, encode, decodeResp32]
theorem fldRunStatus (f : Frame) : Statement (.fldRunStatus f) := fun _ _ _ => by
  simp [Sys2Proof.decode, encode, decodeResp32]
theorem fldFrequency (f : Frame) : Statement (.fldFrequency f) := fun _ _ _ => by
  simp [Sys2Proof.decode, encode, decodeResp32]
theorem fldOperationTime (f : Frame) : Statement (.fldOperationTime f) := fun _ _ _ => by
  simp [Sys2Proof.decode, encode, decodeResp32]
theorem fldPowerFactor (f : Frame) : Statement (.fldPowerFactor f) := fun _ _ _ => by
  simp [Sys2Proof.decode, encode, decodeResp32]
theorem fldDspVersion (f : Frame) : Statement (.fldDspVersion f) := fun _ _ _ => by
  simp [Sys2Proof.decode, encode, decodeResp32]
theorem fmtResp32 (p : Payload) : Statement (.fmtResp32 p) := fun _ _ _ => by
  simp [Sys2Proof.decode, encode, decodeResp32, frameOfPayload_last]
theorem fmtCmd7 : Statement .fmtCmd7 := fun _ _ _ => by
  rfl

end Sys2Proof.Laws.RoundTrip
end

