-- ==== Sys2Proof/Laws/Step.lean ====
section
/-! SUPPORT. Everything one step can do. -/

namespace Sys2Proof.Machine

theorem selectOp_rst (s : State) : selectOp .rst s = .ok .rst := decodeOpw_rst _ _ _

theorem selectOp_poll (s : State) : selectOp .poll s = .ok .poll := decodeOpw_poll _ _ _

theorem selectOp_rx (b : Byte) (s : State) : selectOp (.rx b) s = rxChoice s.cur b (xor31 s.buf) := decodeOpw_rx _ _ _

theorem step_idle {s : State} (h : s.inputs = []) : step s = .next s.idle := by
  simp [step, h]

theorem step_event {s : State} {e : Event} {rest : List Event} (h : s.inputs = e :: rest) :
    step s = match selectOp e s with
      | .ok i => exec i s.popInput
      | .error r => .refused (.undecodable r) := by
  cases hs : selectOp e s <;> simp [step, h, hs]

/-- The ten things a step can be: no event, or one of the nine operations of 30_encoding.md R33. -/
inductive StepCase (s : State) : State → Prop
  | idle (h : s.inputs = []) : StepCase s s.idle
  | rst (rest : List Event) (h : s.inputs = .rst :: rest) (hc : s.cur.toNat < 32) :
      StepCase s ((s.popInput.beginStep.setCur 0#6).forgetBuf)
  | poll (rest : List Event) (h : s.inputs = .poll :: rest) (hc : s.cur.toNat < 32) :
      StepCase s (s.popInput.beginStep.emitTx pollCommand)
  | syncHit (rest : List Event) (h : s.inputs = .rx Config.hdr1 :: rest) (hc : s.cur = 0#6) :
      StepCase s ((rxCommon Config.hdr1 s.popInput).setCur 1#6)
  | syncMiss (b : Byte) (rest : List Event) (h : s.inputs = .rx b :: rest) (hc : s.cur = 0#6) (hb : b ≠ Config.hdr1) :
      StepCase s ((rxCommon b s.popInput).raise .syncError)
  | hdr2Hit (rest : List Event) (h : s.inputs = .rx Config.hdr2 :: rest) (hc : s.cur = 1#6) :
      StepCase s ((rxCommon Config.hdr2 s.popInput).setCur 2#6)
  | hdr2Miss (b : Byte) (rest : List Event) (h : s.inputs = .rx b :: rest) (hc : s.cur = 1#6) (hb : b ≠ Config.hdr2) :
      StepCase s ((rxCommon b s.popInput).raise .headerError)
  | fill (b : Byte) (rest : List Event) (h : s.inputs = .rx b :: rest) (h2 : 2 ≤ s.cur.toNat) (h30 : s.cur.toNat ≤ 30) :
      StepCase s ((rxCommon b s.popInput).setCur (s.cur + 1#6))
  | lastOk (b : Byte) (rest : List Event) (h : s.inputs = .rx b :: rest) (hc : s.cur = 31#6) (hb : b = xor31 s.buf) :
      StepCase s (emitCompleted (rxCommon b s.popInput))
  | lastBad (b : Byte) (rest : List Event) (h : s.inputs = .rx b :: rest) (hc : s.cur = 31#6) (hb : b ≠ xor31 s.buf) :
      StepCase s ((rxCommon b s.popInput).raise .checksumError)

/-- If a step answers a next state, it is one of the ten cases. -/
theorem step_cases {s t : State} (h : step s = .next t) : StepCase s t := by
  match hin : s.inputs with
  | [] =>
    rw [step_idle hin] at h
    cases h
    exact .idle hin
  | .rst :: rest =>
    rw [step_event hin, selectOp_rst] at h
    obtain ⟨hc, rfl⟩ := execRst_next h
    exact .rst rest hin hc
  | .poll :: rest =>
    rw [step_event hin, selectOp_poll] at h
    obtain ⟨hc, rfl⟩ := execPoll_next h
    exact .poll rest hin hc
  | .rx b :: rest =>
    rw [step_event hin, selectOp_rx] at h
    unfold rxChoice at h
    by_cases h0 : s.cur = 0#6
    · by_cases hb : b = Config.hdr1
      · subst hb
        rw [if_pos h0, if_pos rfl] at h
        obtain ⟨-, rfl⟩ := execRxSyncHit_next h
        exact .syncHit rest hin h0
      · simp only [h0, hb, if_true, if_false] at h
        obtain ⟨-, rfl⟩ := execRxSyncMiss_next h
        exact .syncMiss b rest hin h0 hb
    · by_cases h1 : s.cur = 1#6
      · by_cases hb : b = Config.hdr2
        · subst hb
          rw [if_neg h0, if_pos h1, if_pos rfl] at h
          obtain ⟨-, rfl⟩ := execRxHdr2Hit_next h
          exact .hdr2Hit rest hin h1
        · rw [if_neg h0, if_pos h1, if_neg hb] at h
          obtain ⟨-, rfl⟩ := execRxHdr2Miss_next h
          exact .hdr2Miss b rest hin h1 hb
      · by_cases h31 : s.cur = 31#6
        · by_cases hb : b = xor31 s.buf
          · rw [if_neg h0, if_neg h1, if_pos h31, if_pos hb] at h
            obtain ⟨-, rfl⟩ := execRxLastOk_next h
            exact .lastOk b rest hin h31 hb
          · rw [if_neg h0, if_neg h1, if_pos h31, if_neg hb] at h
            obtain ⟨-, rfl⟩ := execRxLastBad_next h
            exact .lastBad b rest hin h31 hb
        · by_cases h32 : s.cur.toNat < 32
          · rw [if_neg h0, if_neg h1, if_neg h31, if_pos h32] at h
            obtain ⟨⟨-, h2, h30⟩, rfl⟩ := execRxFill_next h
            exact .fill b rest hin h2 h30
          · rw [if_neg h0, if_neg h1, if_neg h31, if_neg h32] at h
            cases h

/-! ### Traces -/

@[simp] theorem traceOutputs_nil (s : State) : traceOutputs s [] = [] := rfl

@[simp] theorem traceEnd_nil (s : State) : traceEnd s [] = .next s := rfl

theorem traceOutputs_cons {s t : State} {e : Event} (tr : List Event) (h : step (s.offer e) = .next t) :
    traceOutputs s (e :: tr) = t.out :: traceOutputs t tr := by
  simp [traceOutputs, runTrace, h]

theorem traceEnd_cons {s t : State} {e : Event} (tr : List Event) (h : step (s.offer e) = .next t) :
    traceEnd s (e :: tr) = traceEnd t tr := by
  simp [traceEnd, runTrace, h]

end Sys2Proof.Machine
end

