-- ==== Sys2Proof/Tests/Slice0.lean ====
section
/-! SUPPORT. Tests: ill-formed terms, decoded words, the vectors of 95_test_vectors.md, and for every obligation with
hypotheses a witness that meets them. -/

namespace Sys2Proof.Tests

open Sys2Proof.Machine Sys2Proof.Vectors

/-- A small state: cursor, cells, pending events. -/
def stateAt (c : BitVec 6) (cells : Frame) (ins : List Event) : State :=
  { cur := c, buf := cells, inputs := ins, out := { }, freeIdx := 0 }

/-- The next state of an outcome. -/
def nextOf (o : Host.Outcome State Fault Refusal) : Option State :=
  match o with
  | .next t => some t
  | .fault _ => none
  | .refused _ => none

/-- The output record of the next state. -/
def outOf (o : Host.Outcome State Fault Refusal) : Option Output := (nextOf o).map (fun t => t.out)

/-- The cursor of the next state. -/
def curOf (o : Host.Outcome State Fault Refusal) : Option (BitVec 6) := (nextOf o).map (fun t => t.cur)

/-- The refusal of an outcome. -/
def refusalOf (o : Host.Outcome State Fault Refusal) : Option Refusal :=
  match o with
  | .next _ => none
  | .fault _ => none
  | .refused r => some r

theorem of_nextOf {o : Host.Outcome State Fault Refusal} {t : State} (h : nextOf o = some t) : o = .next t := by
  cases o with
  | next u => simp only [nextOf, Option.some.injEq] at h; rw [h]
  | fault r => cases h
  | refused r => cases h

/-! ### Ill-formed terms (one for each check of `Instr.wf`) -/

theorem test_wf_sync_miss_with_hdr1 : (Instr.rxSyncMiss 0xB1#8).wf = false := by decide
theorem test_wf_hdr2_miss_with_hdr2 : (Instr.rxHdr2Miss 0xB7#8).wf = false := by decide
theorem test_wf_fill_at_1 : (Instr.rxFill 1#6 0#8).wf = false := by decide
theorem test_wf_fill_at_31 : (Instr.rxFill 31#6 0#8).wf = false := by decide
theorem test_wf_decode_without_header : (Instr.decode (frameI.set 1 0xB6#8)).wf = false := by decide

/-! ### Decoding: words written out from R33's table, R31 and R32 -/

/-- Row 1: `ev` = 10, the other bits ignored (1010 1011 1100 1101). -/
theorem test_decode_rst : decode (.opw 0b1010101111001101#16) 0#8 = .ok .rst := by decide
/-- Row 2: `ev` = 01. -/
theorem test_decode_poll : decode (.opw 0b0111111111111111#16) 0#8 = .ok .poll := by decide
/-- Row 3: 00 000000 10110001. -/
theorem test_decode_sync_hit : decode (.opw 0b0000000010110001#16) 0#8 = .ok .rxSyncHit := by decide
/-- Row 4: 00 000000 10110111. -/
theorem test_decode_sync_miss : decode (.opw 0b0000000010110111#16) 0#8 = .ok (.rxSyncMiss 0xB7#8) := by decide
/-- Row 5: 00 000001 10110111. -/
theorem test_decode_hdr2_hit : decode (.opw 0b0000000110110111#16) 0#8 = .ok .rxHdr2Hit := by decide
/-- Row 6: 00 000001 10110001. -/
theorem test_decode_hdr2_miss : decode (.opw 0b0000000110110001#16) 0#8 = .ok (.rxHdr2Miss 0xB1#8) := by decide
/-- Row 7: 00 011111 10011101, the checksum being 0x9D. -/
theorem test_decode_last_ok : decode (.opw 0b0001111110011101#16) 0x9D#8 = .ok (.rxLastOk 0x9D#8) := by decide
/-- Row 8: 00 011111 11000001, the checksum being 0x9D. -/
theorem test_decode_last_bad : decode (.opw 0b0001111111000001#16) 0x9D#8 = .ok (.rxLastBad 0xC1#8) := by decide
/-- Row 9 at its two ends: 00 000010 and 00 011110. -/
theorem test_decode_fill : decode (.opw 0b0000001000000000#16) 0#8 = .ok (.rxFill 2#6 0#8) ∧
    decode (.opw 0b0001111010110001#16) 0#8 = .ok (.rxFill 30#6 0xB1#8) := by decide
/-- R37: `cur` = 32 with `ev` = 0, and `ev` = 3. -/
theorem test_decode_refused : decode (.opw 0x2000#16) 0#8 = .error .cursorUnreachable ∧
    decode (.opw 0xC000#16) 0#8 = .error .reservedEvent := by decide
/-- R31, R36: frame `G` as a 256-bit value, offset 0 in the low byte. -/
theorem test_decode_decode : decode (.resp32 0#8 0x9D6E6301010259010000000001869F00FF016001C8089A0E0101050E1501B7B1#256) 0#8 = .ok (.decode frameG) := by decide
/-- R32. -/
theorem test_decode_cmd7 : decode (.cmd7 0xCD05185461960A#56) 0#8 = .ok .fmtCmd7 ∧
    decode (.cmd7 0x2D05185461960A#56) 0#8 = .error .notPollCommand := by decide
/-- R31: `G` is a RawFrame; `T`, with 0xC1 as last byte, is not. -/
theorem test_decode_resp32 : decode (.resp32 15#8 0x9D6E6301010259010000000001869F00FF016001C8089A0E0101050E1501B7B1#256) 0#8 = .ok (.fmtResp32 (payloadOf frameG)) ∧
    decode (.resp32 15#8 0xC16E6301010259010000000001869F00FF016001C8089A0E0101050E1501B7B1#256) 0#8 = .error .checksumMismatch := by decide
/-- Frame `I` (byte i is i) as a 256-bit value (R36). -/
abbrev bitsI : BitVec 256 := 0x181E1D1C1B1A191817161514131211100F0E0D0C0B0A0908070605040302B7B1#256
theorem test_decode_fld_solarVoltage1 : decode (.resp32 1#8 bitsI) 0#8 = .ok (.fldSolarVoltage1 frameI) := by decide
theorem test_decode_fld_solarCurrent : decode (.resp32 2#8 bitsI) 0#8 = .ok (.fldSolarCurrent frameI) := by decide
theorem test_decode_fld_solarVoltage2 : decode (.resp32 3#8 bitsI) 0#8 = .ok (.fldSolarVoltage2 frameI) := by decide
theorem test_decode_fld_lineVoltage : decode (.resp32 4#8 bitsI) 0#8 = .ok (.fldLineVoltage frameI) := by decide
theorem test_decode_fld_lineCurrent : decode (.resp32 5#8 bitsI) 0#8 = .ok (.fldLineCurrent frameI) := by decide
theorem test_decode_fld_temperature : decode (.resp32 6#8 bitsI) 0#8 = .ok (.fldTemperature frameI) := by decide
theorem test_decode_fld_energyToday : decode (.resp32 7#8 bitsI) 0#8 = .ok (.fldEnergyToday frameI) := by decide
theorem test_decode_fld_energyTotal : decode (.resp32 8#8 bitsI) 0#8 = .ok (.fldEnergyTotal frameI) := by decide
theorem test_decode_fld_faultCode : decode (.resp32 9#8 bitsI) 0#8 = .ok (.fldFaultCode frameI) := by decide
theorem test_decode_fld_runStatus : decode (.resp32 10#8 bitsI) 0#8 = .ok (.fldRunStatus frameI) := by decide
theorem test_decode_fld_frequency : decode (.resp32 11#8 bitsI) 0#8 = .ok (.fldFrequency frameI) := by decide
theorem test_decode_fld_operationTime : decode (.resp32 12#8 bitsI) 0#8 = .ok (.fldOperationTime frameI) := by decide
theorem test_decode_fld_powerFactor : decode (.resp32 13#8 bitsI) 0#8 = .ok (.fldPowerFactor frameI) := by decide
theorem test_decode_fld_dspVersion : decode (.resp32 14#8 bitsI) 0#8 = .ok (.fldDspVersion frameI) := by decide

/-! ### Checksums (V-X, V-C) -/

/-- V-X5, V-X6, V-X7, V-X11. -/
theorem test_xor31 : xor31 frameG = 0x9D#8 ∧ xor31 frameH = 0x83#8 ∧ xor31 frameI = 0x18#8 ∧ xor31 frameR = 0x00#8 := by
  decide
/-- V-C1, V-C2, V-C4, V-C5. -/
theorem test_sum8 : sum8 Config.cmdFixed.toList 2 4 = 0xCD#8 ∧ sum8 Config.cmdFixed.toList 0 5 = 0x72#8 ∧
    sum8 [0xFF#8, 0x02#8] 0 1 = 0x01#8 ∧ sum8 [0x80#8, 0x80#8, 0x80#8] 0 2 = 0x80#8 := by decide

/-! ### One step of each operation (V-A, V-C7, V-E) -/

/-- V-A1. -/
theorem test_sync_hit : curOf (step (stateAt 0#6 frameM [.rx 0xB1#8])) = some 1#6 := by decide
/-- V-A3. -/
theorem test_sync_miss : outOf (step (stateAt 0#6 frameZ [.rx 0xB7#8])) = some { diag := some .syncError } := by decide
/-- V-A4. -/
theorem test_hdr2_hit : curOf (step (stateAt 1#6 frameZ [.rx 0xB7#8])) = some 2#6 := by decide
/-- V-A5: 0xB1 at cursor 1 is a miss, and the cursor is 0, not 1. -/
theorem test_hdr2_miss : curOf (step (stateAt 1#6 frameZ [.rx 0xB1#8])) = some 0#6 ∧
    outOf (step (stateAt 1#6 frameZ [.rx 0xB1#8])) = some { diag := some .headerError } := by decide
/-- V-A6: 0xB1 inside a frame is stored, no restart. -/
theorem test_fill : (nextOf (step (stateAt 7#6 frameZ [.rx 0xB1#8]))).map (fun t => (t.cur, t.buf.get 7)) =
    some (8#6, 0xB1#8) := by decide
/-- V-A16: the 31st byte is still a fill. -/
theorem test_fill_31st : curOf (step (stateAt 30#6 frameZ [.rx 0x6E#8])) = some 31#6 := by decide
/-- V-A8: `G` is accepted, with the record of S2. -/
theorem test_last_ok : outOf (step (stateAt 31#6 (frameG.set 31 0#8) [.rx 0x9D#8])) =
    some { diag := some .frameValid, frame := some frameG, telemetry := (decodeRecord frameG).port } := by decide
/-- V-A7: the source's literal frame `T` is rejected. -/
theorem test_last_bad : outOf (step (stateAt 31#6 (frameT.set 31 0#8) [.rx 0xC1#8])) =
    some { diag := some .checksumError } := by decide
/-- V-C7. -/
theorem test_poll : outOf (step (stateAt 20#6 frameG [.poll])) = some
    { tx := [.write #v[0x0A#8, 0x96#8, 0x61#8, 0x54#8, 0x18#8, 0x05#8, 0xCD#8], .flush] } ∧
    curOf (step (stateAt 20#6 frameG [.poll])) = some 20#6 := by decide
/-- R110's example: cursor 17, `RST`; the byte still pending is kept. -/
theorem test_rst : (nextOf (step (stateAt 17#6 frameG [.rst, .rx 0xB1#8]))).map (fun t => (t.cur, t.out, t.inputs)) =
    some (0#6, { }, [.rx 0xB1#8]) := by decide
/-- U5, D27: a step from cursor 32 is refused by name, whatever the event. -/
theorem test_cursor_32_refused : [Event.rx 0#8, .rst, .poll].map (fun e => refusalOf (step (stateAt 32#6 frameG [e]))) =
    List.replicate 3 (some (.undecodable .cursorUnreachable)) := by decide
/-- An operation asked for where R33 does not select it is refused by name. -/
theorem test_not_selected : refusalOf (exec .rxHdr2Hit (stateAt 0#6 frameG [])) = some .notSelected := by decide

/-! ### The decoder (S2, V-D2, V-D3) -/

/-- S2 on the source's frame `T`, by `DECODE`. -/
theorem test_decode_T : ((outOf (exec (.decode frameT) (stateAt 0#6 frameZ []))).bind (fun o => o.telemetry.record)).map
    (fun r => allFields.map r.raw) = some [3605, 261, 3585, 2202, 456, 352, 255, 99999, 0, 1, 601, 257, 99, 110] := by
  decide
/-- V-D2: all ones. -/
theorem test_decode_M : allFields.map (decodeRecord frameM).raw = [65535, 65535, 65535, 65535, 65535, 65535, 65535,
    16777215, 4294967295, 255, 65535, 65535, 255, 255] := by decide
/-- V-D3. -/
theorem test_fld_solarVoltage1 : (outOf (exec (.fldSolarVoltage1 frameI) (stateAt 0#6 frameZ []))).map (fun o => o.telemetry) =
    some { solarVoltage1 := some 1027 } := by decide
/-- V-D3. -/
theorem test_fld_solarCurrent : (outOf (exec (.fldSolarCurrent frameI) (stateAt 0#6 frameZ []))).map (fun o => o.telemetry) =
    some { solarCurrent := some 1541 } := by decide
/-- V-D3. -/
theorem test_fld_solarVoltage2 : (outOf (exec (.fldSolarVoltage2 frameI) (stateAt 0#6 frameZ []))).map (fun o => o.telemetry) =
    some { solarVoltage2 := some 2055 } := by decide
/-- V-D3. -/
theorem test_fld_lineVoltage : (outOf (exec (.fldLineVoltage frameI) (stateAt 0#6 frameZ []))).map (fun o => o.telemetry) =
    some { lineVoltage := some 2569 } := by decide
/-- V-D3. -/
theorem test_fld_lineCurrent : (outOf (exec (.fldLineCurrent frameI) (stateAt 0#6 frameZ []))).map (fun o => o.telemetry) =
    some { lineCurrent := some 3083 } := by decide
/-- V-D3. -/
theorem test_fld_temperature : (outOf (exec (.fldTemperature frameI) (stateAt 0#6 frameZ []))).map (fun o => o.telemetry) =
    some { temperature := some 3597 } := by decide
/-- V-D3. -/
theorem test_fld_energyToday : (outOf (exec (.fldEnergyToday frameI) (stateAt 0#6 frameZ []))).map (fun o => o.telemetry) =
    some { energyToday := some 4111 } := by decide
/-- V-D3. -/
theorem test_fld_energyTotal : (outOf (exec (.fldEnergyTotal frameI) (stateAt 0#6 frameZ []))).map (fun o => o.telemetry) =
    some { energyTotal := some 1249809 } := by decide
/-- V-D3. -/
theorem test_fld_faultCode : (outOf (exec (.fldFaultCode frameI) (stateAt 0#6 frameZ []))).map (fun o => o.telemetry) =
    some { faultCode := some 387323156 } := by decide
/-- V-D3. -/
theorem test_fld_runStatus : (outOf (exec (.fldRunStatus frameI) (stateAt 0#6 frameZ []))).map (fun o => o.telemetry) =
    some { runStatus := some 24 } := by decide
/-- V-D3. -/
theorem test_fld_frequency : (outOf (exec (.fldFrequency frameI) (stateAt 0#6 frameZ []))).map (fun o => o.telemetry) =
    some { frequency := some 6681 } := by decide
/-- V-D3. -/
theorem test_fld_operationTime : (outOf (exec (.fldOperationTime frameI) (stateAt 0#6 frameZ []))).map (fun o => o.telemetry) =
    some { operationTime := some 7195 } := by decide
/-- V-D3. -/
theorem test_fld_powerFactor : (outOf (exec (.fldPowerFactor frameI) (stateAt 0#6 frameZ []))).map (fun o => o.telemetry) =
    some { powerFactor := some 29 } := by decide
/-- V-D3. -/
theorem test_fld_dspVersion : (outOf (exec (.fldDspVersion frameI) (stateAt 0#6 frameZ []))).map (fun o => o.telemetry) =
    some { dspVersion := some 30 } := by decide

/-- V-D14, V-D15: all documented bits; only reserved bits. -/
theorem test_fault_masks : faultsReported 0x00033FFF#32 = allFaults ∧ faultsReported 0xFFFCC000#32 = [] := by decide
/-- V-D20. -/
theorem test_run_status : runStatusOf 2#8 = .unspecified 2#8 := by decide
/-- R35. -/
theorem test_decimal : wholePart 110 2 = 1 ∧ fracDigits 2 110 = [1, 0] := by decide

/-! ### The data formats -/

theorem test_fmt_resp32 : (outOf (exec (.fmtResp32 (payloadOf frameH)) (stateAt 0#6 frameZ []))).map (fun o => o.frame) =
    some (some frameH) := by decide
theorem test_fmt_cmd7 : (outOf (exec .fmtCmd7 (stateAt 0#6 frameZ []))).map (fun o => o.tx) =
    some [.write #v[0x0A#8, 0x96#8, 0x61#8, 0x54#8, 0x18#8, 0x05#8, 0xCD#8], .flush] := by decide

/-! ### Words placed for the host -/

theorem test_fetch_fill : decodeTableWord 16 0x05AA = some (.rxFill 5#6 0xAA#8) ∧
    curOf (step (State.reset.withFetchWord 16 0x05AA)) = some 6#6 := by decide
theorem test_fetch_last : decodeTableWord 16 0x1F00 = some (.rxLastOk 0#8) ∧
    (outOf (step (State.reset.withFetchWord 16 0x1F00))).map (fun o => o.diag) = some (some .frameValid) ∧
    decodeTableWord 16 0x1F01 = some (.rxLastBad 1#8) ∧
    (outOf (step (State.reset.withFetchWord 16 0x1F01))).map (fun o => o.diag) = some (some .checksumError) := by decide
theorem test_fetch_frame : (outOf (step (State.reset.withFetchWord 256 0x9D6E6301010259010000000001869F00FF016001C8089A0E0101050E1501B7B1))).map (fun o => o.frame) =
    some (some frameG) := by decide
theorem test_fetch_command : (outOf (step (State.reset.withFetchWord 56 0xCD05185461960A))).map (fun o => o.tx) =
    some [.write pollCommand, .flush] := by decide

/-! ### Witnesses: for every obligation with hypotheses, a state and operands that meet them all -/

theorem witness_DecodeEncodeAgree : (Instr.rxLastOk 0x9D#8).wf = true ∧ (Instr.rxLastOk 0x9D#8).condHolds 0x9D#8 = true := by
  decide
theorem witness_DecodeEncodeAgree_bad :
    (Instr.rxLastBad 0xC1#8).wf = true ∧ (Instr.rxLastBad 0xC1#8).condHolds 0x9D#8 = true := by decide
theorem witness_DecodeEncodeAgree_fill : (Instr.rxFill 2#6 0#8).wf = true ∧ (Instr.rxFill 30#6 0#8).wf = true := by decide
theorem witness_DecodedWordEncodesBackUpToIgnoredBits : decode (.opw 0x1E6E#16) 0#8 = .ok (.rxFill 30#6 0x6E#8) := by decide
theorem witness_DecodedWordEncodesBackUpToIgnoredBits_poll : decode (.opw 0x7FFF#16) 0#8 = .ok .poll := by decide
theorem witness_RawFramesAreTheirPayloads : frameOfPayload (payloadOf frameG) = frameOfPayload (payloadOf frameG) := rfl
theorem witness_StepRunsDecoded : (stateAt 30#6 frameG [.rx 0x6E#8]).inputs = .rx 0x6E#8 :: [] ∧
    decode (.opw (packOpw (Event.rx 0x6E#8).kind (stateAt 30#6 frameG []).cur (Event.rx 0x6E#8).byte)) (xor31 frameG) =
      .ok (.rxFill 30#6 0x6E#8) := by decide
theorem witness_NoEventNoChange : State.reset.inputs = [] := rfl
theorem witness_OnlyUnreachableCursorStops_stops :
    ((stateAt 32#6 frameG [.rx 0#8]).inputs ≠ [] ∧ 32 ≤ (stateAt 32#6 frameG [.rx 0#8]).cur.toNat) ∧
    ((stateAt 63#6 frameG [.rst]).inputs ≠ [] ∧ 32 ≤ (stateAt 63#6 frameG [.rst]).cur.toNat) := by decide
theorem witness_OnlyUnreachableCursorStops_runs :
    ¬ ((stateAt 31#6 frameG [.rx 0#8]).inputs ≠ [] ∧ 32 ≤ (stateAt 31#6 frameG [.rx 0#8]).cur.toNat) ∧
    ¬ ((stateAt 32#6 frameG []).inputs ≠ [] ∧ 32 ≤ (stateAt 32#6 frameG []).cur.toNat) := by decide
theorem witness_StateInvariantKept : (stateAt 31#6 frameG [.rx 0x9D#8]).Inv ∧
    (nextOf (step (stateAt 31#6 frameG [.rx 0x9D#8]))).isSome = true := by decide
theorem witness_StepOutputsLawful : (stateAt 1#6 frameG [.rx 0xB7#8]).Inv ∧
    (nextOf (step (stateAt 1#6 frameG [.rx 0xB7#8]))).isSome = true := by decide
theorem witness_SyncMissResult : (stateAt 0#6 frameG []).cur = 0#6 ∧ 0xB7#8 ≠ 0xB1#8 := by decide
theorem witness_SyncMissResult_run : (stateAt 0#6 frameG []).cur = 0#6 ∧ ∀ b ∈ [0x00#8, 0xB7#8, 0xFF#8], b ≠ 0xB1#8 := by decide
theorem witness_SyncHitResult : State.reset.cur = 0#6 := rfl
theorem witness_Hdr2MissResult : (stateAt 1#6 frameG []).cur = 1#6 ∧ 0xB1#8 ≠ 0xB7#8 := by decide
theorem witness_Hdr2MissResult_stray : (stateAt 0#6 frameG []).cur = 0#6 ∧ 0x00#8 ≠ 0xB7#8 := by decide
theorem witness_Hdr2HitResult : (stateAt 1#6 frameG []).cur = 1#6 := rfl
theorem witness_FillResult_low : (stateAt 2#6 frameG []).cur = 2#6 ∧ 2 ≤ (2#6).toNat ∧ (2#6).toNat ≤ 30 := by decide
theorem witness_FillResult_high : (stateAt 30#6 frameG []).cur = 30#6 ∧ 2 ≤ (30#6).toNat ∧ (30#6).toNat ≤ 30 := by decide
theorem witness_LastOkResult : (stateAt 31#6 frameG []).cur = 31#6 ∧ 0x9D#8 = xor31 (stateAt 31#6 frameG []).buf ∧
    (stateAt 31#6 frameG []).Inv := by decide
theorem witness_LastBadResult : (stateAt 31#6 frameG []).cur = 31#6 ∧ 0xC1#8 ≠ xor31 (stateAt 31#6 frameG []).buf := by decide
/-- One witness for each row of R54, in the table's order. -/
theorem witness_TransitionTable :
    (stateAt 0#6 frameG [.rx 0xB1#8]).cur = 0#6 ∧
    ((stateAt 0#6 frameG [.rx 0xB0#8]).cur = 0#6 ∧ 0xB0#8 ≠ 0xB1#8) ∧
    (stateAt 1#6 frameG [.rx 0xB7#8]).cur = 1#6 ∧
    ((stateAt 1#6 frameG [.rx 0xB1#8]).cur = 1#6 ∧ 0xB1#8 ≠ 0xB7#8) ∧
    (2 ≤ (stateAt 2#6 frameG [.rx 0#8]).cur.toNat ∧ (stateAt 30#6 frameG [.rx 0#8]).cur.toNat ≤ 30) ∧
    ((stateAt 31#6 frameG [.rx 0x9D#8]).cur = 31#6 ∧ 0x9D#8 = xor31 frameG) ∧
    ((stateAt 31#6 frameG [.rx 0xC1#8]).cur = 31#6 ∧ 0xC1#8 ≠ xor31 frameG) ∧
    ((stateAt 31#6 frameG [.rst]).inputs = .rst :: [] ∧ (stateAt 31#6 frameG [.rst]).cur.toNat < 32) ∧
    ((stateAt 31#6 frameG [.poll]).inputs = .poll :: [] ∧ (stateAt 31#6 frameG [.poll]).cur.toNat < 32) := by decide
theorem witness_OnlyRxWritesItsCell : (stateAt 5#6 frameG [.rx 0xAA#8]).inputs.head? ≠ some .rst ∧
    (nextOf (step (stateAt 5#6 frameG [.rx 0xAA#8]))).map (fun t => t.buf.get 5) = some 0xAA#8 ∧
    (0xAA#8) ≠ (stateAt 5#6 frameG []).buf.get 5 := by decide
theorem witness_XorIgnoresOrder : [0x01#8, 0x02#8].Perm [0x02#8, 0x01#8] := by decide
theorem witness_RunStatusIsTheByte : 2#8 ≠ 0#8 ∧ 2#8 ≠ 1#8 := by decide
/-- The 14 field operations on `G`, in R60's order. -/
def opsG : List Instr :=
  [.fldSolarVoltage1 frameG, .fldSolarCurrent frameG, .fldSolarVoltage2 frameG, .fldLineVoltage frameG,
    .fldLineCurrent frameG, .fldTemperature frameG, .fldEnergyToday frameG, .fldEnergyTotal frameG, .fldFaultCode frameG,
    .fldRunStatus frameG, .fldFrequency frameG, .fldOperationTime frameG, .fldPowerFactor frameG, .fldDspVersion frameG]
/-- The 14 field operations in reverse order. -/
theorem witness_DecodeIsItsFieldsInAnyOrder : opsG.reverse.Perm
    [.fldSolarVoltage1 frameG, .fldSolarCurrent frameG, .fldSolarVoltage2 frameG, .fldLineVoltage frameG,
    .fldLineCurrent frameG, .fldTemperature frameG, .fldEnergyToday frameG, .fldEnergyTotal frameG, .fldFaultCode frameG,
    .fldRunStatus frameG, .fldFrequency frameG, .fldOperationTime frameG, .fldPowerFactor frameG, .fldDspVersion frameG] :=
  List.reverse_perm opsG
theorem witness_RecordIsTheFieldBytes : ∀ i : Fin 32, 3 ≤ i.val → i.val ≤ 30 → frameT.get i = frameG.get i := by decide
theorem witness_FaultBitTable : FaultName.inverterOvercurrentHardware.bit < 24 ∧ documentedFaultMask.getLsbD 17 = true := by
  decide
theorem witness_ReservedFaultBitsPreserved : (stateAt 31#6 frameM [.rx 0xF9#8]).inputs = .rx 0xF9#8 :: [] ∧
    (stateAt 31#6 frameM [.rx 0xF9#8]).cur = 31#6 ∧ 0xF9#8 = xor31 (stateAt 31#6 frameM []).buf := by decide
theorem witness_FieldsAreUnsigned : (decodeRecord frameM).temperature = 0xFFFF#16 := by decide
theorem witness_Sum8IsTheSumModulo256 : 1 ≤ 1 ∧ 1 < [0x12#8, 0x34#8, 0x56#8].length := by decide
/-- One witness for each of the four events, in the order of their codes. -/
theorem witness_DiagnosticCauses :
    [(0#6, 0x00#8), (1#6, 0xB1#8), (31#6, 0x00#8), (31#6, 0x9D#8)].map
      (fun x => (outOf (step (stateAt x.1 frameG [.rx x.2]))).map (fun o => o.diag)) =
    [some (some .syncError), some (some .headerError), some (some .checksumError), some (some .frameValid)] := by decide
theorem witness_ErrorEntry : (outOf (step (stateAt 0#6 frameG [.rx 0#8]))).map (fun o => o.diag) = some (some .syncError) ∧
    Diag.syncError.isError = true := by decide
theorem witness_StepDependsOnDataAndEvent :
    (stateAt 31#6 frameG [.rx 0x9D#8]).inputs = .rx 0x9D#8 :: [] ∧
    (stateAt 31#6 frameG [.rx 0x9D#8, .poll]).inputs = .rx 0x9D#8 :: [.poll] ∧
    (stateAt 31#6 frameG [.rx 0x9D#8]).cur.toNat < 32 := by decide
theorem witness_StepDependsOnDataAndEvent_refused :
    (stateAt 32#6 frameG [.rst]).inputs = .rst :: [] ∧ (stateAt 32#6 frameG [.rst, .poll]).inputs = .rst :: [.poll] ∧
    32 ≤ (stateAt 32#6 frameG [.rst]).cur.toNat := by decide
theorem witness_PollsDoNotInterfere : (nextOf (traceEnd (stateAt 0#6 frameG []) [.rx 0xB1#8, .poll])).isSome = true := by
  decide
theorem witness_StaleCellsUnobservable : (stateAt 2#6 frameG []).cur.toNat < 32 ∧
    (stateAt 2#6 frameG []).Agrees (stateAt 2#6 frameM []) := by
  refine ⟨by decide, rfl, ?_⟩
  decide
theorem witness_PollResult : (stateAt 31#6 frameG []).cur.toNat < 32 ∧ 32 ≤ (stateAt 32#6 frameG []).cur.toNat := by decide
theorem witness_RstResult : (stateAt 31#6 frameG []).cur.toNat < 32 ∧ 32 ≤ (stateAt 63#6 frameG []).cur.toNat := by decide
theorem witness_EveryRawFrameAccepted : State.reset.cur = 0#6 ∧ isRawFrame frameG = true := by decide
theorem witness_BadChecksumDiscarded : State.reset.cur = 0#6 ∧ hasHeader frameT = true ∧ frameT.get 31 ≠ xor31 frameT := by
  decide
/-- Two frames in one stream: reported at bytes 31 and 63. -/
theorem witness_FramesAreRunsOfTheStream :
    (traceOutputs (stateAt 0#6 frameZ []) (rxs (frameG.toList ++ frameH.toList)))[31]?.bind (fun o => o.frame) = some frameG ∧
    (traceOutputs (stateAt 0#6 frameZ []) (rxs (frameG.toList ++ frameH.toList)))[63]?.bind (fun o => o.frame) = some frameH := by
  decide +kernel
/-- Each clause at the ends of its range: byte 31 and byte 2 (one `ChecksumError`), byte 1, byte 0. -/
theorem witness_SingleBitErrorsRejected : (stateAt 0#6 frameZ []).cur = 0#6 ∧ isRawFrame frameG = true ∧
    ((7 < 8 ∧ 2 ≤ (31 : Fin 32).val) ∧ (frameG.setIfInBounds 31 (frameG.get 31 ^^^ (1#8 <<< 7))).get 31 = 0x1D#8) ∧
    ((0 < 8 ∧ 2 ≤ (2 : Fin 32).val) ∧ (frameG.setIfInBounds 2 (frameG.get 2 ^^^ (1#8 <<< 0))).get 2 = 0x00#8) ∧
    ((7 < 8 ∧ (1 : Fin 32).val = 1) ∧ (frameG.setIfInBounds 1 (frameG.get 1 ^^^ (1#8 <<< 7))).get 1 = 0x37#8) ∧
    ((0 < 8 ∧ (0 : Fin 32).val = 0) ∧ (frameG.setIfInBounds 0 (frameG.get 0 ^^^ (1#8 <<< 0))).get 0 = 0xB0#8) := by decide
theorem witness_DoubleFlipUndetected : isRawFrame frameG = true ∧ (5 : Fin 32) ≠ 20 ∧ 2 ≤ (5 : Fin 32).val ∧
    2 ≤ (20 : Fin 32).val ∧ 4 < 8 := by decide
theorem witness_RotatedFrameStillValid : isRawFrame frameH = true ∧ frameH.get 17 = 0xB1#8 ∧ frameH.get 18 = 0xB7#8 ∧
    frameR.toList = frameH.toList.drop 17 ++ frameH.toList.take 17 := by decide
theorem witness_StrayHeaderLosesTheFrame : (stateAt 0#6 frameZ []).cur = 0#6 ∧ isRawFrame frameG = true ∧
    (∀ i : Fin 32, 1 ≤ i.val → frameG.get i ≠ 0xB1#8) := by decide
theorem witness_PartialFrameOnlyGrows_low : 2 ≤ (stateAt 2#6 frameG []).cur.toNat ∧ Event.rst ∉ [Event.rx 1#8, .poll] ∧
    (stateAt 2#6 frameG []).cur.toNat + ([Event.rx 1#8, .poll].filter (fun e => decide (e ≠ .poll))).length ≤ 31 := by decide
theorem witness_PartialFrameOnlyGrows_high : 2 ≤ (stateAt 31#6 frameG []).cur.toNat ∧ Event.rst ∉ [Event.poll] ∧
    (stateAt 31#6 frameG []).cur.toNat + ([Event.poll].filter (fun e => decide (e ≠ .poll))).length ≤ 31 := by decide
theorem witness_CycleOrderUnobservable : (stateAt 31#6 frameG []).cur.toNat < 32 := by decide

end Sys2Proof.Tests
end

section
/-! PROOFS. Family 40_frame_assembler.md, R41 to R46: the two misses, the two hits and the fill. -/

namespace Sys2Proof.Machine

/-! ### Cells after the append of R41 -/

theorem rxCommon_get_cursor {s : State} {k : Fin 32} (b : Byte) (hk : s.cur.toNat = k.val) :
    (rxCommon b s).buf.get k = b := by
  rw [rxCommon_buf, append_cell, if_pos hk.symm]

theorem rxCommon_get_of_ne {s : State} {k i : Fin 32} (b : Byte) (hk : s.cur.toNat = k.val) (hi : i ≠ k) :
    (rxCommon b s).buf.get i = s.buf.get i := by
  rw [rxCommon_buf, append_cell, if_neg (hk ▸ Fin.val_ne_of_ne hi)]

/-! ### Each operation completes where R33 selects it -/

section
variable {s : State}

theorem whenSelected_of_pos {c : Prop} [Decidable c] (t : State) (h : c) : whenSelected c t = .next t :=
  (whenSelected_next c t t).mpr ⟨h, rfl⟩

theorem exec_rxSyncMiss {b : Byte} (hs : s.cur = 0#6) (hb : b ≠ Config.hdr1) :
    exec (.rxSyncMiss b) s = .next ((rxCommon b s).raise .syncError) :=
  whenSelected_of_pos _ ⟨hs, hb⟩

theorem exec_rxSyncHit (hs : s.cur = 0#6) : exec .rxSyncHit s = .next ((rxCommon Config.hdr1 s).setCur 1#6) :=
  whenSelected_of_pos _ hs

theorem exec_rxHdr2Miss {b : Byte} (hs : s.cur = 1#6) (hb : b ≠ Config.hdr2) :
    exec (.rxHdr2Miss b) s = .next ((rxCommon b s).raise .headerError) :=
  whenSelected_of_pos _ ⟨hs, hb⟩

theorem exec_rxHdr2Hit (hs : s.cur = 1#6) : exec .rxHdr2Hit s = .next ((rxCommon Config.hdr2 s).setCur 2#6) :=
  whenSelected_of_pos _ hs

theorem exec_rxFill {c : BitVec 6} (b : Byte) (hs : s.cur = c) (h2 : 2 ≤ c.toNat) (h30 : c.toNat ≤ 30) :
    exec (.rxFill c b) s = .next ((rxCommon b s).setCur (s.cur + 1#6)) :=
  whenSelected_of_pos _ ⟨hs, h2, h30⟩

/-! ### Steps on a received byte while the header is awaited -/

/-- The step on an offered byte runs the operation that R33 selects for it, on the state the byte was offered to. -/
theorem step_offer_rx {b : Byte} {i : Instr} (h : rxChoice s.cur b (xor31 s.buf) = .ok i) :
    step (s.offer (.rx b)) = exec i s := by
  rw [step_event (State.offer_inputs s _), selectOp_rx, State.offer_cur, State.offer_buf, h]
  rfl

theorem step_syncMiss {b : Byte} (hs : s.cur = 0#6) (hb : b ≠ Config.hdr1) :
    step (s.offer (.rx b)) = .next ((rxCommon b s).raise .syncError) := by
  rw [step_offer_rx (by rw [rxChoice, if_pos hs, if_neg hb]), exec_rxSyncMiss hs hb]

theorem step_syncHit (hs : s.cur = 0#6) :
    step (s.offer (.rx Config.hdr1)) = .next ((rxCommon Config.hdr1 s).setCur 1#6) := by
  rw [step_offer_rx (by rw [rxChoice, if_pos hs, if_pos rfl]), exec_rxSyncHit hs]

theorem step_hdr2Miss {b : Byte} (hs : s.cur = 1#6) (hb : b ≠ Config.hdr2) :
    step (s.offer (.rx b)) = .next ((rxCommon b s).raise .headerError) := by
  have h0 : s.cur ≠ 0#6 := by simp [hs]
  rw [step_offer_rx (by rw [rxChoice, if_neg h0, if_pos hs, if_neg hb]), exec_rxHdr2Miss hs hb]

end

/-! ### Traces while the header is awaited -/

/-- A run of bytes none of which starts a frame: one `SyncError` per byte, and the cursor never leaves 0 (R42). -/
theorem syncMiss_run (s : State) (bs : List Byte) (hs : s.cur = 0#6) (hbs : ∀ b ∈ bs, b ≠ Config.hdr1) :
    traceOutputs s (rxs bs) = List.replicate bs.length { diag := some .syncError } ∧
    ∃ t, traceEnd s (rxs bs) = .next t ∧ t.cur = 0#6 := by
  induction bs generalizing s with
  | nil => exact ⟨rfl, s, rfl, hs⟩
  | cons b bs ih =>
    obtain ⟨hb, hrest⟩ := List.forall_mem_cons.mp hbs
    have hstep := step_syncMiss hs hb
    obtain ⟨houts, hend⟩ := ih ((rxCommon b s).raise .syncError) rfl hrest
    constructor
    · calc traceOutputs s (rxs (b :: bs))
          = { diag := some .syncError } :: traceOutputs ((rxCommon b s).raise .syncError) (rxs bs) :=
            traceOutputs_cons (rxs bs) hstep
        _ = List.replicate (b :: bs).length { diag := some .syncError } := by rw [houts]; rfl
    · have hcons : traceEnd s (rxs (b :: bs)) = traceEnd ((rxCommon b s).raise .syncError) (rxs bs) :=
        traceEnd_cons (rxs bs) hstep
      rwa [hcons]

/-- A 0xB1 that no 0xB7 follows: its successor is consumed with one `HeaderError`, and the trace goes on from a state
with cursor 0 (R43, R44). -/
theorem strayHeader_run {s : State} {b : Byte} (hs : s.cur = 0#6) (hb : b ≠ Config.hdr2) :
    ∃ t, t.cur = 0#6 ∧ ∀ bs : List Byte,
      traceOutputs s (rxs (Config.hdr1 :: b :: bs)) =
        { } :: { diag := some .headerError } :: traceOutputs t (rxs bs) ∧
      traceEnd s (rxs (Config.hdr1 :: b :: bs)) = traceEnd t (rxs bs) := by
  have hhit := step_syncHit hs
  have hmiss := step_hdr2Miss (s := (rxCommon Config.hdr1 s).setCur 1#6) rfl hb
  refine ⟨(rxCommon b ((rxCommon Config.hdr1 s).setCur 1#6)).raise .headerError, rfl, fun bs => ⟨?_, ?_⟩⟩
  · exact (traceOutputs_cons _ hhit).trans (congrArg _ (traceOutputs_cons (rxs bs) hmiss))
  · exact (traceEnd_cons _ hhit).trans (traceEnd_cons (rxs bs) hmiss)

/-! ### The obligations -/

/-- Settles O12: the effect of one miss, and the run of misses by induction on the bytes. -/
theorem syncMissResult : Obligations.SyncMissResult := by
  refine ⟨fun b s hs hb => ?_, syncMiss_run⟩
  have hk : s.cur.toNat = (0 : Fin 32).val := by rw [hs]; rfl
  exact ⟨_, exec_rxSyncMiss hs hb, rfl, rfl, fun i hi => rxCommon_get_of_ne b hk hi, rfl, rfl⟩

/-- Settles O13: the append writes the cell at the cursor, cell 0, and no other. -/
theorem syncHitResult : Obligations.SyncHitResult := by
  intro s hs
  have hk : s.cur.toNat = (0 : Fin 32).val := by rw [hs]; rfl
  exact ⟨_, exec_rxSyncHit hs, rfl, rxCommon_get_cursor _ hk, rfl, fun i hi => rxCommon_get_of_ne _ hk hi, rfl, rfl⟩

/-- Settles O14: the effect of one miss; both traces begin with a stray 0xB1, and in `B1 B1 B7` the last byte is then
a miss at cursor 0. -/
theorem hdr2MissResult : Obligations.Hdr2MissResult := by
  refine ⟨fun b s hs hb => ?_, fun s hs => ?_, fun s b hs hb => ?_⟩
  · have hk : s.cur.toNat = (1 : Fin 32).val := by rw [hs]; rfl
    exact ⟨_, exec_rxHdr2Miss hs hb, rfl, rfl, fun i hi => rxCommon_get_of_ne b hk hi, rfl, rfl⟩
  · obtain ⟨t, ht, hrun⟩ := strayHeader_run (b := 0xB1#8) hs (by decide)
    obtain ⟨houts, hend⟩ := hrun [0xB7#8]
    obtain ⟨houts', hend'⟩ := syncMiss_run t [0xB7#8] ht (by decide)
    rw [houts, hend, houts']
    exact ⟨rfl, hend'⟩
  · obtain ⟨t, ht, hrun⟩ := strayHeader_run hs hb
    obtain ⟨houts, hend⟩ := hrun []
    rw [houts, hend]
    exact ⟨rfl, t, rfl, ht⟩

/-- Settles O15: the append writes the cell at the cursor, cell 1, and no other. -/
theorem hdr2HitResult : Obligations.Hdr2HitResult := by
  intro s hs
  have hk : s.cur.toNat = (1 : Fin 32).val := by rw [hs]; rfl
  exact ⟨_, exec_rxHdr2Hit hs, rfl, rxCommon_get_cursor _ hk, rfl, fun i hi => rxCommon_get_of_ne _ hk hi, rfl, rfl⟩

/-- Settles O16: the cursor is at most 30, so its successor does not wrap around. -/
theorem fillResult : Obligations.FillResult := by
  rintro c b s rfl h2 h30
  have hcur : (s.cur + 1#6).toNat = s.cur.toNat + 1 := BitVec.toNat_add_of_lt (by change s.cur.toNat + 1 < 64; omega)
  exact ⟨_, exec_rxFill b rfl h2 h30, hcur, append_cell s.buf s.cur.toNat b, rfl, rfl, rfl⟩

end Sys2Proof.Machine
end

section
/-! PROOFS. Family 41_telemetry_decoder.md, R61 to R69 and R71 to R74: the fields' assignments, their bits and their
values. -/

namespace Sys2Proof.Machine

/-! ### Bits of a little-endian number -/

/-- Bit `i` of a little-endian number is bit `i mod 8` of its byte `i div 8` (R22). -/
theorem leNat_testBit (l : List Byte) (i : Nat) (h : i / 8 < l.length) :
    (leNat l).testBit i = (l[i / 8]).getLsbD (i % 8) := by
  have hmod : i % 8 < 8 := Nat.mod_lt i (by decide)
  calc (leNat l).testBit i
      = (leNat l).testBit (8 * (i / 8) + i % 8) := by rw [Nat.div_add_mod]
    _ = (leNat l / 256 ^ (i / 8) % 2 ^ 8).testBit (i % 8) := by
        rw [Nat.testBit_mod_two_pow, decide_eq_true hmod, Bool.true_and, show 256 = 2 ^ 8 from rfl, ← Nat.pow_mul,
          Nat.testBit_div_two_pow, Nat.add_comm]
    _ = (l[i / 8]).getLsbD (i % 8) := congrArg (Nat.testBit · (i % 8)) (leNat_byte l (i / 8) h)

theorem u32le_toNat_eq_leNat (f : Frame) (a b c d : Fin 32) :
    (u32le f a b c d).toNat = leNat [f.get a, f.get b, f.get c, f.get d] := by
  rw [u32le_toNat]
  simp only [leNat]
  omega

/-- Byte `i div 8` of the four holds bit `i` of their 32-bit number (R34). -/
theorem u32le_getLsbD (f : Frame) (a b c d : Fin 32) (i : Nat) (h : i / 8 < 4) :
    (u32le f a b c d).getLsbD i = [f.get a, f.get b, f.get c, f.get d][i / 8].getLsbD (i % 8) := by
  rw [BitVec.getLsbD, u32le_toNat_eq_leNat]
  exact leNat_testBit [f.get a, f.get b, f.get c, f.get d] i h

/-- The fault code's bytes are the frame's from offset 20 on (R69). -/
theorem rawFaultCode_getLsbD (f : Frame) (i : Nat) (h : i < 32) :
    (rawFaultCode f).getLsbD i = (f.get ⟨20 + i / 8, by omega⟩).getLsbD (i % 8) := by
  have hbyte : ∀ (k : Nat) (hk : k < 4),
      [f.get 20, f.get 21, f.get 22, f.get 23][k] = f.get ⟨20 + k, by omega⟩
    | 0, _ | 1, _ | 2, _ | 3, _ => rfl
  have hi : i / 8 < 4 := by omega
  rw [rawFaultCode, u32le_getLsbD f 20 21 22 23 i hi, hbyte _ hi]

/-! ### Values by decimal exponent (R35, R77) -/

section
variable {n : FieldName}

theorem value_of_exp10_zero (h : n.exp10 = 0) (r : TelemetryRecord) : r.value n = (r.raw n : ℚ) := by
  rw [TelemetryRecord.value, h, pow_zero, div_one]

theorem value_of_exp10_one (h : n.exp10 = 1) (r : TelemetryRecord) : r.value n = (r.raw n : ℚ) / 10 := by
  rw [TelemetryRecord.value, h, pow_one]

theorem value_of_exp10_two (h : n.exp10 = 2) (r : TelemetryRecord) : r.value n = (r.raw n : ℚ) / 100 := by
  rw [TelemetryRecord.value, h, show (10 : ℚ) ^ 2 = 100 by norm_num]

end

/-- R67: no other two-byte field is in hundredths. -/
theorem bytes_two_and_exp10_two_iff (n : FieldName) : n.bytes = 2 ∧ n.exp10 = 2 ↔ n = .energyToday := by
  cases n <;> decide

/-! ### The obligations

Each field operation is, by definition, the one assignment of its rule to the telemetry port, from every state. -/

/-- Settles O26: both assignments by definition, the bit placement from the bytes of a little-endian number. -/
theorem energyTotalAndFaultCode : Obligations.EnergyTotalAndFaultCode :=
  ⟨fun _ _ => ⟨rfl, rfl⟩, rawFaultCode_getLsbD, rfl, rfl, rfl, rfl, value_of_exp10_zero rfl, by decide⟩

/-- Settles O24: the seven assignments by definition, the values from the common exponent 1. -/
theorem tenthFields : Obligations.TenthFields := by
  have hscale : ∀ n ∈ [FieldName.solarVoltage1, .solarCurrent, .solarVoltage2, .lineVoltage, .lineCurrent, .temperature,
      .frequency], n.exp10 = 1 ∧ n.bytes = 2 := by decide
  refine ⟨fun _ _ => ⟨rfl, rfl, rfl, rfl, rfl, rfl, rfl⟩, fun n hn => ?_, rfl⟩
  obtain ⟨hexp, hbytes⟩ := hscale n hn
  exact ⟨hexp, hbytes, value_of_exp10_one hexp⟩

/-- Settles O25: exponents 2 and 0, and the uniqueness by the table of widths and exponents. -/
theorem energyTodayAndOperationTime : Obligations.EnergyTodayAndOperationTime :=
  ⟨fun _ _ => ⟨rfl, rfl⟩, rfl, rfl, bytes_two_and_exp10_two_iff, rfl, rfl,
    fun r => ⟨value_of_exp10_two rfl r, value_of_exp10_zero rfl r⟩⟩

/-- Settles O27: both raw bytes are in hundredths, and the rendering of 110 is computed. -/
theorem powerFactorAndVersion : Obligations.PowerFactorAndVersion :=
  ⟨fun _ _ => ⟨rfl, rfl⟩, rfl, rfl, rfl, rfl, fun r => ⟨value_of_exp10_two rfl r, value_of_exp10_two rfl r⟩, by decide⟩

end Sys2Proof.Machine
end

section
/-! PROOFS. Family 42_command_encoder.md, R81 and R82: the checksum of a byte range and the poll command. -/

namespace Sys2Proof.Machine

/-- R81, the running sum: reducing after every addition or once at the end gives the same byte, from any start `x`. -/
theorem toNat_foldl_add (l : List Byte) (x : Byte) :
    (l.foldl (fun x y => x + y) x).toNat = (x.toNat + (l.map BitVec.toNat).sum) % 256 := by
  induction l generalizing x with
  | nil => exact (Nat.mod_eq_of_lt x.isLt).symm
  | cons b bs ih =>
    calc ((b :: bs).foldl (fun x y => x + y) x).toNat
        = ((x + b).toNat + (bs.map BitVec.toNat).sum) % 256 := ih (x + b)
      _ = (x.toNat + b.toNat + (bs.map BitVec.toNat).sum) % 256 := by rw [BitVec.toNat_add, Nat.mod_add_mod]
      _ = (x.toNat + ((b :: bs).map BitVec.toNat).sum) % 256 := by rw [List.map_cons, List.sum_cons, Nat.add_assoc]

/-- The elements of a range inside a list, read offset by offset. -/
theorem take_drop_eq_map_getD {α : Type} {l : List α} {lo n : Nat} (d : α) (h : lo + n ≤ l.length) :
    (l.drop lo).take n = (List.range' lo n).map (fun i => l.getD i d) := by
  refine List.ext_getElem (by simp; omega) fun i hi _ => ?_
  have hin : i < n := (List.length_take ▸ hi).trans_le (Nat.min_le_left ..)
  have hlen : lo + i < l.length := by omega
  simp [hlen]

/-! ### The obligations -/

/-- Settles O38: the range read offset by offset, and its running sum from 0. -/
theorem sum8IsTheSumModulo256 : Obligations.Sum8IsTheSumModulo256 := by
  refine ⟨fun l lo hi hle hlt => ?_, by decide, by decide⟩
  have hrange : lo + (hi + 1 - lo) ≤ l.length := by omega
  rw [sum8, toNat_foldl_add, take_drop_eq_map_getD 0#8 hrange, List.map_map, BitVec.toNat_zero, Nat.zero_add]
  rfl

/-- Settles O39: the first two clauses are the definitions of the command and its ROM, the checksum byte is computed. -/
theorem pollCommandBytes : Obligations.PollCommandBytes :=
  ⟨Vector.toList_push, rfl, by decide⟩

end Sys2Proof.Machine
end

section
/-! PROOFS. One step, in both directions: every case of `StepCase` is a step the machine takes, below cursor 32 some
case applies, and what each case leaves in the fields. -/

namespace Sys2Proof.Machine

/-! ### The operation that 30_encoding.md R33 selects for a received byte -/

section
variable {c : BitVec 6} {b x : Byte}

theorem rxChoice_syncHit : rxChoice 0#6 Config.hdr1 x = .ok .rxSyncHit := rfl

theorem rxChoice_syncMiss (hb : b ≠ Config.hdr1) : rxChoice 0#6 b x = .ok (.rxSyncMiss b) := by
  rw [rxChoice, if_pos rfl, if_neg hb]

theorem rxChoice_hdr2Hit : rxChoice 1#6 Config.hdr2 x = .ok .rxHdr2Hit := rfl

theorem rxChoice_hdr2Miss (hb : b ≠ Config.hdr2) : rxChoice 1#6 b x = .ok (.rxHdr2Miss b) := by
  rw [rxChoice, if_neg (by decide), if_pos rfl, if_neg hb]

theorem rxChoice_lastOk (hb : b = x) : rxChoice 31#6 b x = .ok (.rxLastOk b) := by
  rw [rxChoice, if_neg (by decide), if_neg (by decide), if_pos rfl, if_pos hb]

theorem rxChoice_lastBad (hb : b ≠ x) : rxChoice 31#6 b x = .ok (.rxLastBad b) := by
  rw [rxChoice, if_neg (by decide), if_neg (by decide), if_pos rfl, if_neg hb]

theorem rxChoice_fill (h2 : 2 ≤ c.toNat) (h30 : c.toNat ≤ 30) : rxChoice c b x = .ok (.rxFill c b) := by
  have h0 : c ≠ 0#6 := by rintro rfl; simp at h2
  have h1 : c ≠ 1#6 := by rintro rfl; simp at h2
  have h31 : c ≠ 31#6 := by rintro rfl; simp at h30
  rw [rxChoice, if_neg h0, if_neg h1, if_neg h31, if_pos (by omega)]

/-- The cursor values that R33 tells apart. -/
theorem cursor_cases (hc : c.toNat < 32) : c = 0#6 ∨ c = 1#6 ∨ (2 ≤ c.toNat ∧ c.toNat ≤ 30) ∨ c = 31#6 := by
  bv_omega

theorem rxChoice_unreachable (h : 32 ≤ c.toNat) : rxChoice c b x = .error .cursorUnreachable := by
  have h0 : c ≠ 0#6 := by rintro rfl; simp at h
  have h1 : c ≠ 1#6 := by rintro rfl; simp at h
  have h31 : c ≠ 31#6 := by rintro rfl; simp at h
  rw [rxChoice, if_neg h0, if_neg h1, if_neg h31, if_neg (by omega)]

end

/-! ### Every case of `StepCase` is taken -/

section
variable {s t : State} {e : Event} {rest : List Event}

theorem popInput_eq (h : s.inputs = e :: rest) : s.popInput = { s with inputs := rest } := by
  rw [State.popInput, h, List.tail_cons]

theorem step_of_selectOp {i : Instr} (h : s.inputs = e :: rest) (hi : selectOp e s = .ok i) :
    step s = exec i s.popInput := by
  simp [step, h, hi]

theorem step_of_rxChoice {b : Byte} {i : Instr} (h : s.inputs = .rx b :: rest)
    (hi : rxChoice s.cur b (xor31 s.buf) = .ok i) : step s = exec i s.popInput :=
  step_of_selectOp h ((selectOp_rx b s).trans hi)

theorem exec_rxLastOk {b : Byte} (hs : s.cur = 31#6) (hb : b = xor31 s.buf) :
    exec (.rxLastOk b) s = .next (emitCompleted (rxCommon b s)) :=
  whenSelected_of_pos _ ⟨hs, hb⟩

theorem exec_rxLastBad {b : Byte} (hs : s.cur = 31#6) (hb : b ≠ xor31 s.buf) :
    exec (.rxLastBad b) s = .next ((rxCommon b s).raise .checksumError) :=
  whenSelected_of_pos _ ⟨hs, hb⟩

theorem exec_rst (hs : s.cur.toNat < 32) : exec .rst s = .next ((s.beginStep.setCur 0#6).forgetBuf) :=
  whenReachable_of_lt _ hs

theorem exec_poll (hs : s.cur.toNat < 32) : exec .poll s = .next (s.beginStep.emitTx pollCommand) :=
  whenReachable_of_lt _ hs

/-- The converse of `step_cases`. -/
theorem StepCase.step_eq (h : StepCase s t) : step s = .next t := by
  cases h with
  | idle h => exact step_idle h
  | rst rest h hc => exact (step_of_selectOp h (selectOp_rst s)).trans (exec_rst hc)
  | poll rest h hc => exact (step_of_selectOp h (selectOp_poll s)).trans (exec_poll hc)
  | syncHit rest h hc => exact (step_of_rxChoice h (hc ▸ rxChoice_syncHit)).trans (exec_rxSyncHit hc)
  | syncMiss b rest h hc hb => exact (step_of_rxChoice h (hc ▸ rxChoice_syncMiss hb)).trans (exec_rxSyncMiss hc hb)
  | hdr2Hit rest h hc => exact (step_of_rxChoice h (hc ▸ rxChoice_hdr2Hit)).trans (exec_rxHdr2Hit hc)
  | hdr2Miss b rest h hc hb => exact (step_of_rxChoice h (hc ▸ rxChoice_hdr2Miss hb)).trans (exec_rxHdr2Miss hc hb)
  | fill b rest h h2 h30 => exact (step_of_rxChoice h (rxChoice_fill h2 h30)).trans (exec_rxFill b rfl h2 h30)
  | lastOk b rest h hc hb => exact (step_of_rxChoice h (hc ▸ rxChoice_lastOk hb)).trans (exec_rxLastOk hc hb)
  | lastBad b rest h hc hb => exact (step_of_rxChoice h (hc ▸ rxChoice_lastBad hb)).trans (exec_rxLastBad hc hb)

/-- Below cursor 32 every event has its case. -/
theorem exists_stepCase (h : s.inputs = e :: rest) (hc : s.cur.toNat < 32) : ∃ t, StepCase s t := by
  cases e with
  | rst => exact ⟨_, .rst rest h hc⟩
  | poll => exact ⟨_, .poll rest h hc⟩
  | rx b =>
    obtain h0 | h1 | ⟨h2, h30⟩ | h31 := cursor_cases hc
    · by_cases hb : b = Config.hdr1
      · exact ⟨_, .syncHit rest (hb ▸ h) h0⟩
      · exact ⟨_, .syncMiss b rest h h0 hb⟩
    · by_cases hb : b = Config.hdr2
      · exact ⟨_, .hdr2Hit rest (hb ▸ h) h1⟩
      · exact ⟨_, .hdr2Miss b rest h h1 hb⟩
    · exact ⟨_, .fill b rest h h2 h30⟩
    · by_cases hb : b = xor31 s.buf
      · exact ⟨_, .lastOk b rest h h31 hb⟩
      · exact ⟨_, .lastBad b rest h h31 hb⟩

/-- From a cursor in 32..63 no event is stepped (R37, 92_eei_decisions.md D27). -/
theorem step_unreachable (h : s.inputs = e :: rest) (hc : 32 ≤ s.cur.toNat) :
    step s = .refused (.undecodable .cursorUnreachable) := by
  cases e with
  | rst => exact (step_of_selectOp h (selectOp_rst s)).trans (whenReachable_of_ge _ hc)
  | poll => exact (step_of_selectOp h (selectOp_poll s)).trans (whenReachable_of_ge _ hc)
  | rx b =>
    have hsel : selectOp (.rx b) s = .error .cursorUnreachable := (selectOp_rx b s).trans (rxChoice_unreachable hc)
    simp [step, h, hsel]

/-! ### What a step leaves in the fields -/

theorem StepCase.inputs_eq (h : StepCase s t) : t.inputs = s.inputs.tail := by
  cases h with
  | idle h => rw [State.idle_inputs, h, List.tail_nil]
  | _ => simp

theorem fill_cur_toNat (h30 : s.cur.toNat ≤ 30) : (s.cur + 1#6).toNat = s.cur.toNat + 1 :=
  BitVec.toNat_add_of_lt (by change s.cur.toNat + 1 < 64; omega)

theorem StepCase.cur_lt (h : StepCase s t) (hc : s.cur.toNat < 32) : t.cur.toNat < 32 := by
  cases h with
  | idle | poll => exact hc
  | fill b rest h h2 h30 =>
    change (s.cur + 1#6).toNat < 32
    rw [fill_cur_toNat h30]; omega
  | _ => simp

/-- A step either reports a good frame, with all of its outputs, or has no part of such a report (R47, R94). -/
theorem StepCase.frame_or_quiet (h : StepCase s t) :
    (∃ b rest, s.inputs = .rx b :: rest ∧ s.cur = 31#6 ∧ b = xor31 s.buf ∧
      t = emitCompleted (rxCommon b s.popInput)) ∨
    (t.out.frame = none ∧ t.out.diag ≠ some .frameValid ∧ t.out.telemetry = { }) := by
  cases h with
  | lastOk b rest h hc hb => exact .inl ⟨b, rest, h, hc, hb, rfl⟩
  | _ => exact .inr (by simp)

/-- What was pending behind the event and what the last step output have no part in a step (40_frame_assembler.md R50,
20_memory.md R27). -/
theorem StepCase.withPending (h : StepCase s t) (hin : s.inputs = e :: rest) (rest' : List Event) (o : Output) :
    StepCase { s with inputs := e :: rest', out := o } { t with inputs := rest' } := by
  obtain ⟨c, buf, ins, o', n⟩ := s
  cases hin
  cases h with
  | idle h => cases h
  | rst _ h hc => cases h; exact .rst rest' rfl hc
  | poll _ h hc => cases h; exact .poll rest' rfl hc
  | syncHit _ h hc => cases h; exact .syncHit rest' rfl hc
  | syncMiss b _ h hc hb => cases h; exact .syncMiss b rest' rfl hc hb
  | hdr2Hit _ h hc => cases h; exact .hdr2Hit rest' rfl hc
  | hdr2Miss b _ h hc hb => cases h; exact .hdr2Miss b rest' rfl hc hb
  | fill b _ h h2 h30 => cases h; exact .fill b rest' rfl h2 h30
  | lastOk b _ h hc hb => cases h; exact .lastOk b rest' rfl hc hb
  | lastBad b _ h hc hb => cases h; exact .lastBad b rest' rfl hc hb

end

end Sys2Proof.Machine
end

section
/-! PROOFS. The state invariant and the output records of a step (10_state.md R19, 40_frame_assembler.md R52). -/

namespace Sys2Proof.Machine

section
variable {s t : State}

/-! ### The invariant -/

theorem inv_of_cur_zero (h : s.cur = 0#6) : s.Inv := by
  simp [State.Inv, h]

theorem inv_reset : State.reset.Inv := inv_of_cur_zero rfl

theorem rxCommon_get (b : Byte) (s : State) (i : Fin 32) :
    (rxCommon b s).buf.get i = if i.val = s.cur.toNat then b else s.buf.get i :=
  append_cell s.buf s.cur.toNat b i

/-- An append past the header keeps the header. -/
theorem rxCommon_keeps_header (b : Byte) (h2 : 2 ≤ s.cur.toNat) :
    (rxCommon b s).buf.get 0 = s.buf.get 0 ∧ (rxCommon b s).buf.get 1 = s.buf.get 1 := by
  constructor <;> rw [rxCommon_get, if_neg]
  · change 0 ≠ s.cur.toNat; omega
  · change 1 ≠ s.cur.toNat; omega

theorem StepCase.inv (h : StepCase s t) (hinv : s.Inv) : t.Inv := by
  obtain ⟨hlt, h0, h1⟩ := hinv
  cases h with
  | idle | poll => exact ⟨hlt, h0, h1⟩
  | syncHit rest h hc =>
    refine ⟨by simp, fun _ => ?_, fun h => absurd h (by simp)⟩
    exact rxCommon_get_cursor (s := s.popInput) (k := 0) _ (by rw [State.popInput_cur, hc]; rfl)
  | hdr2Hit rest h hc =>
    have hcur : s.popInput.cur.toNat = (1 : Fin 32).val := by rw [State.popInput_cur, hc]; rfl
    have hget0 : s.buf.get 0 = Config.hdr1 := h0 (by simp [hc])
    exact ⟨by simp, fun _ => (rxCommon_get_of_ne _ hcur (by decide)).trans hget0,
      fun _ => rxCommon_get_cursor _ hcur⟩
  | fill b rest h h2 h30 =>
    obtain ⟨hk0, hk1⟩ := rxCommon_keeps_header (s := s.popInput) b h2
    refine ⟨?_, fun _ => hk0.trans (h0 (by omega)), fun _ => hk1.trans (h1 h2)⟩
    change (s.cur + 1#6).toNat < 32
    rw [fill_cur_toNat h30]; omega
  | _ => exact inv_of_cur_zero (by simp)

/-! ### The output record -/

theorem isRawFrame_iff_checksum (f : Frame) : isRawFrame f = true ↔ hasHeader f = true ∧ f.get 31 = xor31 f := by
  rw [isRawFrame, Bool.and_eq_true, beq_iff_eq]

theorem hasHeader_iff (f : Frame) : hasHeader f = true ↔ f.get 0 = Config.hdr1 ∧ f.get 1 = Config.hdr2 := by
  rw [hasHeader, Bool.and_eq_true, beq_iff_eq, beq_iff_eq]

/-- The buffer with a good 32nd byte appended is a RawFrame (R47, R52). -/
theorem isRawFrame_completed {b : Byte} (hinv : s.Inv) (hc : s.cur = 31#6) (hb : b = xor31 s.buf) :
    isRawFrame (rxCommon b s).buf = true := by
  obtain ⟨-, h0, h1⟩ := hinv
  have hcur : s.cur.toNat = 31 := by rw [hc]; rfl
  obtain ⟨hk0, hk1⟩ := rxCommon_keeps_header b (show 2 ≤ s.cur.toNat by omega)
  rw [isRawFrame_iff_checksum, hasHeader_iff]
  refine ⟨⟨hk0.trans (h0 (by omega)), hk1.trans (h1 (by omega))⟩, ?_⟩
  rw [rxCommon_get_cursor (k := 31) b hcur, rxCommon_buf, hcur, xor31_set_last, hb]

theorem StepCase.tx_eq_nil_or_alone (h : StepCase s t) :
    t.out.tx = [] ∨ t.out = { tx := [.write pollCommand, .flush] } := by
  cases h with
  | poll => exact .inr rfl
  | _ => exact .inl rfl

/-- The output record of a completed frame. -/
theorem emitCompleted_rxCommon_out (b : Byte) (s : State) : (emitCompleted (rxCommon b s)).out =
    { diag := some .frameValid, frame := some (rxCommon b s).buf,
      telemetry := (decodeRecord (rxCommon b s).buf).port } := rfl

theorem StepCase.lawful (h : StepCase s t) (hinv : s.Inv) : t.out.Lawful := by
  obtain ⟨b, rest, -, hc, hb, rfl⟩ | ⟨hf, hd, ht⟩ := h.frame_or_quiet
  · refine ⟨?_, nofun, .inl rfl⟩
    rw [emitCompleted_rxCommon_out]
    rintro f ⟨⟩
    exact ⟨isRawFrame_completed (s := s.popInput) hinv hc hb, rfl, rfl, rfl⟩
  · refine ⟨?_, fun _ => ⟨hd, ht⟩, h.tx_eq_nil_or_alone⟩
    rw [hf]
    exact nofun

end

/-! ### The obligations -/

/-- Settles O9: reset has cursor 0, and each case of a step keeps the invariant. -/
theorem stateInvariantKept : Obligations.StateInvariantKept :=
  ⟨inv_reset, fun _ _ hinv h => (step_cases h).inv hinv⟩

/-- Settles O10: by definition of the reset state. -/
theorem resetIsEmpty : Obligations.ResetIsEmpty := ⟨rfl, rfl, rfl, inv_reset⟩

/-- Settles O11: a step reports a completed frame, a RawFrame under the invariant, or has no part of a report. -/
theorem stepOutputsLawful : Obligations.StepOutputsLawful :=
  fun _ _ hinv h => (step_cases h).lawful hinv

end Sys2Proof.Machine
end

section
/-! PROOFS. The step as the statements see it: the transition table, the refusals, the causes of the diagnostic events,
what an error leaves, and on what a step depends (40_frame_assembler.md R54, 60_exceptions.md R90 to R96). -/

namespace Sys2Proof.Machine

/-! ### Operations where they are and are not selected -/

theorem whenSelected_completes_iff (c : Prop) [Decidable c] (t : State) : (∃ u, whenSelected c t = .next u) ↔ c := by
  simp [whenSelected_next]

theorem whenSelected_next_or_refused (c : Prop) [Decidable c] (t : State) :
    (∃ u, whenSelected c t = .next u) ∨ whenSelected c t = .refused .notSelected := by
  by_cases h : c
  · exact .inl ⟨t, whenSelected_of_pos t h⟩
  · exact .inr (if_neg h)

/-! ### Facts about one step -/

section
variable {s t u : State}

theorem StepCase.unique (ht : StepCase s t) (hu : StepCase s u) : t = u :=
  Host.Outcome.next.inj (ht.step_eq.symm.trans hu.step_eq)

/-- A row of the transition table: the step answers what its operation answers with the event taken. -/
theorem StepCase.row {e : Event} {rest : List Event} {i : Instr} {P : State → Prop} (h : StepCase s t)
    (hin : s.inputs = e :: rest) (hi : selectOp e s = .ok i) (hP : P t) :
    ∃ t, step s = .next t ∧ exec i { s with inputs := rest } = .next t ∧ P t := by
  have hstep := h.step_eq
  exact ⟨t, hstep, by rw [← popInput_eq hin, ← step_of_selectOp hin hi, hstep], hP⟩

theorem StepCase.rxRow {b : Byte} {rest : List Event} {i : Instr} {P : State → Prop} (h : StepCase s t)
    (hin : s.inputs = .rx b :: rest) (hi : rxChoice s.cur b (xor31 s.buf) = .ok i) (hP : P t) :
    ∃ t, step s = .next t ∧ exec i { s with inputs := rest } = .next t ∧ P t :=
  h.row hin ((selectOp_rx b s).trans hi) hP

/-- A step writes the cells as `RST` does, not at all, or at the cursor with the byte received (10_state.md R10). -/
theorem StepCase.buf_cases (h : StepCase s t) :
    s.inputs.head? = some .rst ∨ t.buf = s.buf ∨
    ∃ b rest, s.inputs = .rx b :: rest ∧ t.buf = s.buf.setIfInBounds s.cur.toNat b := by
  cases h with
  | idle | poll => exact .inr (.inl rfl)
  | rst rest h => exact .inl (by rw [h]; rfl)
  | syncHit rest h | hdr2Hit rest h => exact .inr (.inr ⟨_, rest, h, rfl⟩)
  | syncMiss b rest h | hdr2Miss b rest h | fill b rest h | lastOk b rest h | lastBad b rest h =>
    exact .inr (.inr ⟨b, rest, h, rfl⟩)

/-! ### The causes of the diagnostic events -/

/-- What must hold before a step for it to report the event (60_exceptions.md R91 to R94). -/
def Diag.Cause (s : State) : Diag → Prop
  | .syncError => ∃ b rest, s.inputs = .rx b :: rest ∧ s.cur = 0#6 ∧ b ≠ 0xB1#8
  | .headerError => ∃ b rest, s.inputs = .rx b :: rest ∧ s.cur = 1#6 ∧ b ≠ 0xB7#8
  | .checksumError => ∃ b rest, s.inputs = .rx b :: rest ∧ s.cur = 31#6 ∧ b ≠ xor31 s.buf
  | .frameValid => ∃ b rest, s.inputs = .rx b :: rest ∧ s.cur = 31#6 ∧ b = xor31 s.buf

theorem StepCase.diag_iff (h : StepCase s t) (d : Diag) : t.out.diag = some d ↔ d.Cause s := by
  constructor
  · cases h with
    | syncMiss b rest h hc hb | hdr2Miss b rest h hc hb | lastOk b rest h hc hb | lastBad b rest h hc hb =>
      rintro ⟨⟩; exact ⟨b, rest, h, hc, hb⟩
    | _ => rintro ⟨⟩
  · cases d with
    | syncError => rintro ⟨b, rest, hin, hc, hb⟩; rw [h.unique (.syncMiss b rest hin hc hb)]; rfl
    | headerError => rintro ⟨b, rest, hin, hc, hb⟩; rw [h.unique (.hdr2Miss b rest hin hc hb)]; rfl
    | checksumError => rintro ⟨b, rest, hin, hc, hb⟩; rw [h.unique (.lastBad b rest hin hc hb)]; rfl
    | frameValid => rintro ⟨b, rest, hin, hc, hb⟩; rw [h.unique (.lastOk b rest hin hc hb)]; rfl

/-- A step that reports an error is the append and the raising of that error (60_exceptions.md R96). -/
theorem StepCase.eq_raise_of_error {d : Diag} (h : StepCase s t) (hd : t.out.diag = some d) (he : d.isError = true) :
    ∃ b, t = (rxCommon b s.popInput).raise d := by
  cases h with
  | syncMiss b | hdr2Miss b | lastBad b => cases hd; exact ⟨b, rfl⟩
  | lastOk => cases hd; cases he
  | _ => cases hd

end

/-! ### The obligations -/

/-- Settles O6: the decoder's answer on the event's word is the selection that `step` makes. -/
theorem stepRunsDecoded : Obligations.StepRunsDecoded := by
  intro s e rest i hin hi
  rw [step_of_selectOp hin hi, popInput_eq hin]

/-- Settles O7: the idle step. -/
theorem noEventNoChange : Obligations.NoEventNoChange := fun _ => step_idle

/-- Settles O8: with an event pending, the cursor alone decides between a case of `StepCase` and the refusal. -/
theorem onlyUnreachableCursorStops : Obligations.OnlyUnreachableCursorStops := by
  intro s
  cases hin : s.inputs with
  | nil => exact ⟨fun h => absurd rfl h.1, fun _ => ⟨_, step_idle hin, hin⟩⟩
  | cons e rest =>
    refine ⟨fun ⟨_, hc⟩ => step_unreachable hin hc, fun h => ?_⟩
    have hc : s.cur.toNat < 32 := Nat.lt_of_not_le fun hge => h ⟨List.cons_ne_nil e rest, hge⟩
    obtain ⟨t, ht⟩ := exists_stepCase hin hc
    exact ⟨t, ht.step_eq, by rw [ht.inputs_eq, hin]⟩

/-- Settles O17: the append at cursor 31 and the three outputs. -/
theorem lastOkResult : Obligations.LastOkResult := by
  intro b s hc hb
  have hcell := rxCommon_get b s
  rw [hc] at hcell
  exact ⟨_, exec_rxLastOk hc hb, rfl, hcell, rfl, fun hinv => isRawFrame_completed hinv hc hb, rfl, rfl⟩

/-- Settles O18: the append at cursor 31 and the error. -/
theorem lastBadResult : Obligations.LastBadResult := by
  intro b s hc hb
  have hcell := rxCommon_get b s
  rw [hc] at hcell
  exact ⟨_, exec_rxLastBad hc hb, rfl, rfl, hcell, rfl, rfl⟩

/-- Settles O19: each of the seven meanings is a `whenSelected` with its row's condition. -/
theorem rxOperationsRunWhereSelected : Obligations.RxOperationsRunWhereSelected := by
  intro s c b
  refine ⟨?_, whenSelected_completes_iff .., whenSelected_completes_iff .., whenSelected_completes_iff ..,
    whenSelected_completes_iff .., whenSelected_completes_iff .., whenSelected_completes_iff ..,
    whenSelected_completes_iff ..⟩
  simp only [List.forall_mem_cons, List.not_mem_nil, false_imp_iff, implies_true, and_true]
  exact ⟨whenSelected_next_or_refused .., whenSelected_next_or_refused .., whenSelected_next_or_refused ..,
    whenSelected_next_or_refused .., whenSelected_next_or_refused .., whenSelected_next_or_refused ..,
    whenSelected_next_or_refused ..⟩

/-- Settles O20: each row is a case of `StepCase`. -/
theorem transitionTable : Obligations.TransitionTable := by
  intro s rest
  refine ⟨fun b hin hc hb => ?_, fun b hin hc hb => ?_, fun b hin hc hb => ?_, fun b hin hc hb => ?_,
    fun b hin h2 h30 => ?_, fun b hin hc hb => ?_, fun b hin hc hb => ?_, fun hin hc => ?_, fun hin hc => ?_⟩
  · subst hb; exact (StepCase.syncHit rest hin hc).rxRow hin (hc ▸ rxChoice_syncHit) ⟨rfl, rfl⟩
  · exact (StepCase.syncMiss b rest hin hc hb).rxRow hin (hc ▸ rxChoice_syncMiss hb) ⟨rfl, rfl⟩
  · subst hb; exact (StepCase.hdr2Hit rest hin hc).rxRow hin (hc ▸ rxChoice_hdr2Hit) ⟨rfl, rfl⟩
  · exact (StepCase.hdr2Miss b rest hin hc hb).rxRow hin (hc ▸ rxChoice_hdr2Miss hb) ⟨rfl, rfl⟩
  · exact (StepCase.fill b rest hin h2 h30).rxRow hin (rxChoice_fill h2 h30) ⟨fill_cur_toNat h30, rfl⟩
  · exact (StepCase.lastOk b rest hin hc hb).rxRow hin (hc ▸ rxChoice_lastOk hb) ⟨rfl, rfl⟩
  · exact (StepCase.lastBad b rest hin hc hb).rxRow hin (hc ▸ rxChoice_lastBad hb) ⟨rfl, rfl⟩
  · exact (StepCase.rst rest hin hc).row hin (selectOp_rst s) ⟨by simp, by simp⟩
  · exact (StepCase.poll rest hin hc).row hin (selectOp_poll s) ⟨rfl, rfl⟩

/-- Settles O21: of the three ways to treat the cells only the append changes one, the cursor's. -/
theorem onlyRxWritesItsCell : Obligations.OnlyRxWritesItsCell := by
  intro s t i h hrst hne
  obtain hr | hb | ⟨b, rest, hin, hb⟩ := (step_cases h).buf_cases
  · exact absurd hr hrst
  · exact absurd (by rw [hb]) hne
  · rw [hb, append_cell] at hne ⊢
    by_cases hi : i.val = s.cur.toNat
    · exact ⟨b, rest, hin, hi.symm, if_pos hi⟩
    · exact absurd (if_neg hi) hne

/-- Settles O40: the reachable and the unreachable cursors. -/
theorem pollResult : Obligations.PollResult :=
  fun _ => ⟨exec_poll, whenReachable_of_ge _⟩

/-- Settles O42: the reachable and the unreachable cursors. -/
theorem rstResult : Obligations.RstResult :=
  fun _ => ⟨fun hc => ⟨_, exec_rst hc, by simp, by simp, by simp⟩, whenReachable_of_ge _⟩

/-- Settles O43: each event has one case of the step, and that case is the only one with its cause. -/
theorem diagnosticCauses : Obligations.DiagnosticCauses :=
  ⟨⟨rfl, rfl, rfl, rfl, rfl⟩, fun _ _ h => ⟨(step_cases h).diag_iff .syncError, (step_cases h).diag_iff .headerError,
    (step_cases h).diag_iff .checksumError, (step_cases h).diag_iff .frameValid⟩⟩

/-- Settles O44: an error step is the append and the raising of the error. -/
theorem errorEntry : Obligations.ErrorEntry := by
  intro s t d h hd he
  obtain ⟨b, rfl⟩ := (step_cases h).eq_raise_of_error hd he
  exact ⟨rfl, rfl, rfl, rfl, fun i hi => (rxCommon_get b s.popInput i).trans (if_neg hi)⟩

/-- Settles O46: the second state is the first with other events behind the oldest one and another last output. -/
theorem stepDependsOnDataAndEvent : Obligations.StepDependsOnDataAndEvent := by
  intro s₁ s₂ e r₁ r₂ h₁ h₂ hcur hbuf hfree
  refine ⟨fun hc => ?_, fun hc => ⟨_, step_unreachable h₁ hc, step_unreachable h₂ (hcur ▸ hc)⟩⟩
  obtain ⟨t, ht⟩ := exists_stepCase h₁ hc
  have heq : s₂ = { s₁ with inputs := e :: r₂, out := s₂.out } := by rw [hcur, hbuf, hfree, ← h₂]
  have ht' : StepCase s₂ { t with inputs := r₂ } := heq ▸ ht.withPending h₁ r₂ s₂.out
  exact ⟨t, _, ht.step_eq, ht'.step_eq, rfl, rfl, rfl, rfl, by rw [ht.inputs_eq, h₁, List.tail_cons], rfl⟩

end Sys2Proof.Machine
end

section
/-! PROOFS. The code words and the response checksum (30_encoding.md R31 to R38, 40_frame_assembler.md R40,
R53, R55). -/

namespace Sys2Proof.Machine

/-! ### Frames as 31 bytes and a last one -/

theorem toList_eq_take_append_last (f : Frame) : f.toList = f.toList.take 31 ++ [f.get 31] := by
  have h : f.toList.take (31 + 1) = f.toList := List.take_of_length_le (by simp)
  rw [← h, List.take_succ_eq_append_getElem (by simp)]
  simp [Vector.get]

theorem toList_eq_cons_cons (f : Frame) : f.toList = f.get 0 :: f.get 1 :: f.toList.drop 2 := by
  have h : f.toList.drop 0 = f.toList := List.drop_zero
  rw [← h, List.drop_eq_getElem_cons (by simp), List.drop_eq_getElem_cons (by simp)]
  rfl

section
variable (v : Vector Byte 31) (c : Byte)

theorem push_get_of_lt (i : Nat) (h : i < 31) : (v.push c).get ⟨i, by omega⟩ = v[i] := Vector.getElem_push_lt h

theorem push_get_last : (v.push c).get 31 = c := Vector.getElem_push_eq

theorem xor31_push : xor31 (v.push c) = xorBytes v.toList := by
  simp [xor31, Vector.toList_push]

end

/-- Header and payload of a frame do not depend on its last byte. -/
theorem hasHeader_frameHead_push (p : Payload) (c : Byte) : hasHeader ((frameHead p).push c) = true := by
  have h0 := push_get_of_lt (frameHead p) c 0 (by decide)
  have h1 := push_get_of_lt (frameHead p) c 1 (by decide)
  rw [frameHead_get] at h0 h1
  exact (hasHeader_iff _).mpr ⟨h0, h1⟩

theorem payloadOf_getElem (f : Frame) (i : Nat) (h : i < 29) : (payloadOf f)[i] = f.get ⟨i + 2, by omega⟩ :=
  Vector.getElem_ofFn h

theorem payloadOf_frameHead_push (p : Payload) (c : Byte) : payloadOf ((frameHead p).push c) = p := by
  refine Vector.ext fun i h => ?_
  rw [payloadOf_getElem, push_get_of_lt _ _ (i + 2) (by omega), frameHead_get]
  simp

/-- Behind a good header, the bytes before the last are the header and the free bytes (R31). -/
theorem frameHead_payloadOf {f : Frame} (h : hasHeader f = true) :
    (frameHead (payloadOf f)).toList = f.toList.take 31 := by
  obtain ⟨h0, h1⟩ := (hasHeader_iff f).mp h
  refine List.ext_getElem (by simp) fun i hi hi' => ?_
  rw [Vector.getElem_toList, frameHead_get _ _ (by simpa using hi), List.getElem_take, Vector.getElem_toList]
  match i with
  | 0 => exact h0.symm
  | 1 => exact h1.symm
  | i + 2 =>
    have hi31 : i + 2 < 31 := by simpa using hi'
    simp [payloadOf_getElem f i (by omega), Vector.get]

theorem frameOfPayload_payloadOf {f : Frame} (h : isRawFrame f = true) : frameOfPayload (payloadOf f) = f := by
  obtain ⟨hh, hlast⟩ := (isRawFrame_iff_checksum f).mp h
  have hhead := frameHead_payloadOf hh
  apply Vector.toList_inj.mp
  rw [frameOfPayload, Vector.toList_push, hhead, toList_eq_take_append_last f, hlast, xor31]
  simp

/-! ### The exclusive-OR of bytes -/

/-- R55. -/
theorem xorBytes_perm {l m : List Byte} (h : l.Perm m) : xorBytes l = xorBytes m := by
  induction h with
  | nil => rfl
  | cons b _ ih => rw [xorBytes_cons, xorBytes_cons, ih]
  | swap a b l => simp only [xorBytes_cons, ← BitVec.xor_assoc, BitVec.xor_comm]
  | trans _ _ ih₁ ih₂ => exact ih₁.trans ih₂

/-- R40: bit `j` of the exclusive-OR is the parity of the bits `j`. -/
theorem xorBytes_getLsbD (l : List Byte) (j : Nat) :
    (xorBytes l).getLsbD j = decide (l.countP (fun b => b.getLsbD j) % 2 = 1) := by
  induction l with
  | nil => simp
  | cons b bs ih =>
    rw [xorBytes_cons, BitVec.getLsbD_xor, ih, List.countP_cons]
    cases b.getLsbD j
    · simp
    · by_cases hp : bs.countP (fun b => b.getLsbD j) % 2 = 1 <;> simp [hp] <;> omega

theorem last_eq_xor31_iff (f : Frame) : f.get 31 = xor31 f ↔ xorBytes f.toList = 0#8 := by
  rw [toList_eq_take_append_last f, xorBytes_append, xorBytes_cons, xorBytes_nil, BitVec.xor_zero,
    BitVec.xor_eq_zero_iff, eq_comm]
  rfl

theorem isRawFrame_iff (f : Frame) : isRawFrame f = true ↔ hasHeader f = true ∧ xorBytes f.toList = 0#8 := by
  rw [isRawFrame_iff_checksum, last_eq_xor31_iff]

/-! ### Words and their fields -/

theorem packOpw_fields (w : BitVec 16) :
    packOpw (w.extractLsb' 14 2) (w.extractLsb' 8 6) (w.extractLsb' 0 8) = w := by
  apply BitVec.eq_of_toNat_eq
  have hw := w.isLt
  simp only [packOpw_toNat, BitVec.extractLsb'_toNat, Nat.shiftRight_eq_div_pow]
  omega

theorem event_kind_cases (ev : BitVec 2) : ev = 0#2 ∨ ev = 1#2 ∨ ev = 2#2 ∨ ev = 3#2 := by
  revert ev; decide

theorem frameOfBits_getElem (v : BitVec 256) (i : Nat) (h : i < 32) : (frameOfBits v)[i] = v.extractLsb' (8 * i) 8 :=
  Vector.getElem_ofFn h

theorem frameBits_getLsbD (f : Frame) (i : Nat) (h : i / 8 < 32) :
    (frameBits f).getLsbD i = f[i / 8].getLsbD (i % 8) := by
  rw [BitVec.getLsbD, frameBits_toNat]
  exact leNat_testBit f.toList i (by simpa using h)

theorem frameBits_frameOfBits (v : BitVec 256) : frameBits (frameOfBits v) = v := by
  refine BitVec.eq_of_getLsbD_eq fun i hi => ?_
  have hmod : i % 8 < 8 := Nat.mod_lt i (by decide)
  rw [frameBits_getLsbD _ i (by omega), frameOfBits_getElem, BitVec.getLsbD_extractLsb', Nat.div_add_mod,
    decide_eq_true hmod, Bool.true_and]

/-! ### What the decoder answers -/

/-- `i` is well-formed, meets its row's condition for the checksum byte `x`, leaves no bit of its word unread, and its
code word is `w`. -/
def ReadsBack (x : Byte) (w : CodeWord) (i : Instr) : Prop :=
  i.wf = true ∧ i.condHolds x = true ∧ i ≠ .rst ∧ i ≠ .poll ∧ encode i = w

theorem ReadsBack.roundTrip {x : Byte} {w : CodeWord} {i : Instr} (h : ReadsBack x w i) :
    i.wf = true ∧ i.condHolds x = true ∧ (i ≠ .rst → i ≠ .poll → encode i = w) ∧
    (i = .rst ∨ i = .poll → ∃ v : BitVec 16, w = .opw v ∧ encode i = .opw (v &&& 0xC000#16)) := by
  obtain ⟨hwf, hcond, hrst, hpoll, henc⟩ := h
  exact ⟨hwf, hcond, fun _ _ => henc, fun hi => (hi.elim hrst hpoll).elim⟩

theorem rxChoice_readsBack {c : BitVec 6} (b x : Byte) (hc : c.toNat < 32) :
    ∃ i, rxChoice c b x = .ok i ∧ ReadsBack x (.opw (packOpw 0#2 c b)) i := by
  obtain rfl | rfl | ⟨h2, h30⟩ | rfl := cursor_cases hc
  · by_cases hb : b = Config.hdr1
    · subst hb; exact ⟨_, rxChoice_syncHit, rfl, rfl, nofun, nofun, rfl⟩
    · exact ⟨_, rxChoice_syncMiss hb, bne_iff_ne.mpr hb, rfl, nofun, nofun, rfl⟩
  · by_cases hb : b = Config.hdr2
    · subst hb; exact ⟨_, rxChoice_hdr2Hit, rfl, rfl, nofun, nofun, rfl⟩
    · exact ⟨_, rxChoice_hdr2Miss hb, bne_iff_ne.mpr hb, rfl, nofun, nofun, rfl⟩
  · exact ⟨_, rxChoice_fill h2 h30, decide_eq_true ⟨h2, h30⟩, rfl, nofun, nofun, rfl⟩
  · by_cases hb : b = x
    · exact ⟨_, rxChoice_lastOk hb, rfl, beq_iff_eq.mpr hb, nofun, nofun, rfl⟩
    · exact ⟨_, rxChoice_lastBad hb, rfl, bne_iff_ne.mpr hb, nofun, nofun, rfl⟩

theorem resp32_eq_of_role {role : BitVec 8} {n : Nat} (h : role.toNat = n) (v : BitVec 256) :
    CodeWord.resp32 (BitVec.ofNat 8 n) (frameBits (frameOfBits v)) = .resp32 role v := by
  rw [frameBits_frameOfBits, ← h, BitVec.ofNat_toNat, BitVec.setWidth_eq]

theorem decodeResp32_readsBack {role : BitVec 8} {v : BitVec 256} {i : Instr} (x : Byte)
    (h : decodeResp32 role v = .ok i) : ReadsBack x (.resp32 role v) i := by
  unfold decodeResp32 at h
  simp only at h
  split at h
  case h_1 hr =>
    split at h
    · cases h; exact ⟨‹_›, rfl, nofun, nofun, resp32_eq_of_role hr v⟩
    · cases h
  case h_16 hr =>
    split at h
    · rename_i hh
      split at h
      · rename_i hlast
        cases h
        refine ⟨rfl, rfl, nofun, nofun, ?_⟩
        rw [encode, frameOfPayload_payloadOf ((isRawFrame_iff_checksum _).mpr ⟨hh, hlast⟩)]
        exact resp32_eq_of_role hr v
      · cases h
    · cases h
  case h_17 => cases h
  all_goals cases h; exact ⟨rfl, rfl, nofun, nofun, resp32_eq_of_role ‹_› v⟩

theorem decodeCmd7_readsBack {v : BitVec 56} {i : Instr} (x : Byte) (h : decodeCmd7 v = .ok i) :
    ReadsBack x (.cmd7 v) i := by
  unfold decodeCmd7 at h
  split at h
  · subst v; cases h; exact ⟨rfl, rfl, nofun, nofun, by decide⟩
  · cases h

/-! ### The obligations -/

/-- Settles O1: the round trip of each of the 26 rows. -/
theorem decodeEncodeAgree : Obligations.DecodeEncodeAgree := by
  intro i
  cases i with
  | rst => exact Laws.RoundTrip.rst
  | poll => exact Laws.RoundTrip.poll
  | rxSyncHit => exact Laws.RoundTrip.rxSyncHit
  | rxSyncMiss b => exact Laws.RoundTrip.rxSyncMiss b
  | rxHdr2Hit => exact Laws.RoundTrip.rxHdr2Hit
  | rxHdr2Miss b => exact Laws.RoundTrip.rxHdr2Miss b
  | rxLastOk b => exact Laws.RoundTrip.rxLastOk b
  | rxLastBad b => exact Laws.RoundTrip.rxLastBad b
  | rxFill c b => exact Laws.RoundTrip.rxFill c b
  | decode f => exact Laws.RoundTrip.decode f
  | fldSolarVoltage1 f => exact Laws.RoundTrip.fldSolarVoltage1 f
  | fldSolarCurrent f => exact Laws.RoundTrip.fldSolarCurrent f
  | fldSolarVoltage2 f => exact Laws.RoundTrip.fldSolarVoltage2 f
  | fldLineVoltage f => exact Laws.RoundTrip.fldLineVoltage f
  | fldLineCurrent f => exact Laws.RoundTrip.fldLineCurrent f
  | fldTemperature f => exact Laws.RoundTrip.fldTemperature f
  | fldEnergyToday f => exact Laws.RoundTrip.fldEnergyToday f
  | fldEnergyTotal f => exact Laws.RoundTrip.fldEnergyTotal f
  | fldFaultCode f => exact Laws.RoundTrip.fldFaultCode f
  | fldRunStatus f => exact Laws.RoundTrip.fldRunStatus f
  | fldFrequency f => exact Laws.RoundTrip.fldFrequency f
  | fldOperationTime f => exact Laws.RoundTrip.fldOperationTime f
  | fldPowerFactor f => exact Laws.RoundTrip.fldPowerFactor f
  | fldDspVersion f => exact Laws.RoundTrip.fldDspVersion f
  | fmtResp32 p => exact Laws.RoundTrip.fmtResp32 p
  | fmtCmd7 => exact Laws.RoundTrip.fmtCmd7

/-- Settles O2: the operation words by their event kind, the other words by the decoder's branches. -/
theorem decodedWordEncodesBackUpToIgnoredBits : Obligations.DecodedWordEncodesBackUpToIgnoredBits := by
  intro w x i h
  cases w with
  | resp32 role v => exact (decodeResp32_readsBack x h).roundTrip
  | cmd7 v => exact (decodeCmd7_readsBack x h).roundTrip
  | opw w =>
    rw [← packOpw_fields w] at h ⊢
    generalize w.extractLsb' 14 2 = ev, w.extractLsb' 8 6 = c, w.extractLsb' 0 8 = b at h ⊢
    change decodeOpw (packOpw ev c b) x = .ok i at h
    obtain rfl | rfl | rfl | rfl := event_kind_cases ev
    · rw [decodeOpw_rx] at h
      rcases Nat.lt_or_ge c.toNat 32 with hc | hc
      · obtain ⟨i', hi', hback⟩ := rxChoice_readsBack b x hc
        cases hi'.symm.trans h
        exact hback.roundTrip
      · cases (rxChoice_unreachable hc).symm.trans h
    · cases (decodeOpw_poll c b x).symm.trans h
      exact ⟨rfl, rfl, fun _ hne => absurd rfl hne, fun _ => ⟨_, rfl, by rw [packOpw_eventMask]; rfl⟩⟩
    · cases (decodeOpw_rst c b x).symm.trans h
      exact ⟨rfl, rfl, fun hne _ => absurd rfl hne, fun _ => ⟨_, rfl, by rw [packOpw_eventMask]; rfl⟩⟩
    · cases (decodeOpw_reserved c b x).symm.trans h

/-- Settles O3: ten words, decoded. -/
theorem wordsOfTheTable : Obligations.WordsOfTheTable := by
  unfold Obligations.WordsOfTheTable
  decide

/-- Settles O4: by event kind; of the received bytes' words those with a cursor in 32..63 select nothing. -/
theorem refusedOperationWords : Obligations.RefusedOperationWords := by
  intro w x
  change (∃ r, decodeOpw w x = .error r) ↔ _
  conv => lhs; rw [← packOpw_fields w]
  generalize w.extractLsb' 14 2 = ev, w.extractLsb' 8 6 = c, w.extractLsb' 0 8 = b
  obtain rfl | rfl | rfl | rfl := event_kind_cases ev
  · rw [decodeOpw_rx]
    rcases Nat.lt_or_ge c.toNat 32 with hc | hc
    · obtain ⟨i, hi, -⟩ := rxChoice_readsBack b x hc
      simp [hi, hc]
    · simp [rxChoice_unreachable hc, hc]
  · simp [decodeOpw_poll]
  · simp [decodeOpw_rst]
  · simp [decodeOpw_reserved]

/-- Settles O5: a RawFrame is the frame of its payload, and the payload can be read off the frame. -/
theorem rawFramesAreTheirPayloads : Obligations.RawFramesAreTheirPayloads := by
  refine ⟨fun f => ⟨fun h => (frameOfPayload_payloadOf h).symm, fun h => h ▸ isRawFrame_frameOfPayload _⟩,
    fun p q h => ?_⟩
  have hpay := congrArg payloadOf h
  rwa [payloadOf_frameOfPayload, payloadOf_frameOfPayload] at hpay

/-- Settles O22: the parity bit by bit, and the checksum equation as a vanishing exclusive-OR. -/
theorem xor31IsParity : Obligations.Xor31IsParity :=
  ⟨fun f j _ => xorBytes_getLsbD (f.toList.take 31) j, last_eq_xor31_iff, by decide, by decide⟩

/-- Settles O23. -/
theorem xorIgnoresOrder : Obligations.XorIgnoresOrder := fun _ _ => xorBytes_perm

/-- Settles O41: the frame of the payload, read at its places, and the command's constants. -/
theorem formatResults : Obligations.FormatResults := by
  refine ⟨fun p s => ⟨_, frameOfPayload p, rfl, rfl, ?_⟩, fun s => rfl, by decide, by decide⟩
  obtain ⟨h0, h1⟩ := (hasHeader_iff _).mp (hasHeader_frameOfPayload p)
  refine ⟨h0, h1, fun i hi => ?_, (frameOfPayload_last p).trans (xor31_frameOfPayload p).symm⟩
  rw [← payloadOf_getElem _ i hi, payloadOf_frameOfPayload]

/-- Settles O59: a FRAME is the frame of its payload; a BADFRAME differs from it in its last byte only. -/
theorem traceNotationExpands : Obligations.TraceNotationExpands := by
  refine ⟨fun p => ⟨rfl, payloadOf_frameOfPayload p, hasHeader_frameOfPayload p,
    (frameOfPayload_last p).trans (xor31_frameOfPayload p).symm⟩, fun p => ?_, fun _ => rfl, fun _ _ => rfl⟩
  have hlast : (badFrameOfPayload p).get 31 = xor31 (badFrameOfPayload p) ^^^ 0xFF#8 := by
    rw [badFrameOfPayload, push_get_last, xor31_push]
  refine ⟨rfl, payloadOf_frameHead_push p _, hasHeader_frameHead_push p _, hlast, ?_⟩
  rw [isRawFrame, hlast, Bool.and_eq_false_iff, beq_eq_false_iff_ne]
  refine .inr fun h => ?_
  have h0 := BitVec.xor_eq_zero_iff.mpr h
  rw [BitVec.xor_comm, ← BitVec.xor_assoc, BitVec.xor_self, BitVec.zero_xor] at h0
  exact absurd h0 (by decide)

end Sys2Proof.Machine
end

section
/-! PROOFS. Traces: their end and outputs put together from parts, and the bytes received so far of a frame in progress
(20_memory.md R27, 40_frame_assembler.md R50, 10_state.md R11). -/

namespace Sys2Proof.Machine

/-! ### Traces taken apart and put together -/

section
variable {s t u : State} {e : Event} {tr : List Event}

theorem traceEnd_cons_refused {r : Refusal} (tr : List Event) (h : step (s.offer e) = .refused r) :
    traceEnd s (e :: tr) = .refused r := by
  simp [traceEnd, runTrace, h]

theorem traceEnd_cons_next (h : traceEnd s (e :: tr) = .next t) :
    ∃ u, StepCase (s.offer e) u ∧ traceEnd u tr = .next t := by
  cases hs : step (s.offer e) with
  | next u => exact ⟨u, step_cases hs, by rwa [traceEnd_cons tr hs] at h⟩
  | fault r => cases r
  | refused r => rw [traceEnd_cons_refused tr hs] at h; cases h

theorem StepCase.traceOutputs_cons (h : StepCase (s.offer e) u) (tr : List Event) :
    traceOutputs s (e :: tr) = u.out :: traceOutputs u tr :=
  Machine.traceOutputs_cons tr h.step_eq

theorem StepCase.traceEnd_cons (h : StepCase (s.offer e) u) (tr : List Event) :
    traceEnd s (e :: tr) = traceEnd u tr :=
  Machine.traceEnd_cons tr h.step_eq

theorem trace_append (h : traceEnd s tr = .next t) (tr' : List Event) :
    traceOutputs s (tr ++ tr') = traceOutputs s tr ++ traceOutputs t tr' ∧
    traceEnd s (tr ++ tr') = traceEnd t tr' := by
  induction tr generalizing s with
  | nil => cases h; exact ⟨rfl, rfl⟩
  | cons e tr ih =>
    obtain ⟨u, hu, hend⟩ := traceEnd_cons_next h
    obtain ⟨ih₁, ih₂⟩ := ih hend
    rw [List.cons_append, hu.traceOutputs_cons, hu.traceOutputs_cons, hu.traceEnd_cons, ih₁, ih₂]
    exact ⟨rfl, rfl⟩

/-- A property of the output record that every step establishes holds all along every trace. -/
theorem forall_mem_traceOutputs {P : Output → Prop} (hP : ∀ s t, StepCase s t → P t.out) (s : State) (tr : List Event) :
    ∀ o ∈ traceOutputs s tr, P o := by
  induction tr generalizing s with
  | nil => exact fun o ho => absurd ho List.not_mem_nil
  | cons e tr ih =>
    cases hs : step (s.offer e) with
    | next u =>
      rw [Machine.traceOutputs_cons tr hs]
      exact List.forall_mem_cons.mpr ⟨hP _ _ (step_cases hs), ih u⟩
    | fault r => cases r
    | refused r => simp [traceOutputs, runTrace, hs]

/-- A property of the state that every step keeps holds where a trace ends. -/
theorem traceEnd_keeps {P : State → Prop} (hP : ∀ s e t, P s → StepCase (s.offer e) t → P t) (hs : P s)
    (h : traceEnd s tr = .next t) : P t := by
  induction tr generalizing s with
  | nil => cases h; exact hs
  | cons e tr ih =>
    obtain ⟨u, hu, hend⟩ := traceEnd_cons_next h
    exact ih (hP s e u hs hu) hend

theorem traceEnd_inv (hs : s.Inv) (h : traceEnd s tr = .next t) : t.Inv :=
  traceEnd_keeps (P := State.Inv) (fun _ _ _ hinv hstep => hstep.inv hinv) hs h

/-- No trace from a cursor below 32 is refused. -/
theorem exists_traceEnd (tr : List Event) (hc : s.cur.toNat < 32) : ∃ t, traceEnd s tr = .next t := by
  induction tr generalizing s with
  | nil => exact ⟨s, rfl⟩
  | cons e tr ih =>
    obtain ⟨u, hu⟩ := exists_stepCase (s := s.offer e) rfl hc
    rw [hu.traceEnd_cons]
    exact ih (hu.cur_lt hc)

/-- The last output has no part in the step on an offered event. -/
theorem StepCase.offer_withOut (h : StepCase (s.offer e) u) (o : Output) :
    StepCase ({ s with out := o }.offer e) u := by
  have hin : u.inputs = s.inputs := h.inputs_eq
  have hcase := h.withPending rfl s.inputs o
  rw [← hin] at hcase
  exact hin ▸ hcase

/-- The last output has no part in a trace. -/
theorem trace_withOut (h : traceEnd s tr = .next t) (o : Output) :
    traceOutputs { s with out := o } tr = traceOutputs s tr ∧
    ∃ t', traceEnd { s with out := o } tr = .next t' ∧ t'.cur = t.cur ∧ t'.buf = t.buf := by
  cases tr with
  | nil => cases h; exact ⟨rfl, _, rfl, rfl, rfl⟩
  | cons e tr =>
    obtain ⟨u, hu, hend⟩ := traceEnd_cons_next h
    rw [hu.traceOutputs_cons, (hu.offer_withOut o).traceOutputs_cons, (hu.offer_withOut o).traceEnd_cons]
    exact ⟨rfl, t, hend, rfl, rfl⟩

end

/-! ### The bytes received so far -/

/-- The cells below the cursor: the bytes of the frame in progress (10_state.md R11). -/
def State.received (s : State) : List Byte := s.buf.toList.take s.cur.toNat

section
variable {s t : State} {b : Byte}

theorem received_length (hc : s.cur.toNat < 32) : s.received.length = s.cur.toNat := by
  rw [State.received, List.length_take, Vector.length_toList]; omega

theorem received_eq_nil (h : s.cur = 0#6) : s.received = [] := by
  rw [State.received, h]; rfl

theorem received_getElem (i : Fin 32) (h : i.val < s.received.length) : s.received[i.val] = s.buf.get i := by
  simp [State.received, Vector.get]

/-- The cells up to and with the one just written. -/
theorem take_append_cell (hc : s.cur.toNat < 32) :
    (rxCommon b s).buf.toList.take (s.cur.toNat + 1) = s.received ++ [b] := by
  have hlen : (s.received ++ [b]).length = s.cur.toNat + 1 := by simp [received_length hc]
  rw [rxCommon_buf, Vector.toList_setIfInBounds, List.set_eq_take_append_cons_drop, if_pos (by simpa using hc),
    ← State.received, ← List.singleton_append, ← List.append_assoc, List.take_left' hlen]

/-- The buffer after the append of the 32nd byte. -/
theorem completed_toList (hc : s.cur = 31#6) : (rxCommon b s).buf.toList = s.received ++ [b] := by
  rw [← take_append_cell (by simp [hc]), hc]
  exact (List.take_of_length_le (by simp)).symm

theorem xor31_eq_received (hc : s.cur = 31#6) : xor31 s.buf = xorBytes s.received := by
  rw [State.received, hc]; rfl

theorem received_grow (h30 : s.cur.toNat ≤ 30) :
    ((rxCommon b s).setCur (s.cur + 1#6)).received = s.received ++ [b] := by
  rw [State.received, State.setCur_cur, State.setCur_buf, fill_cur_toNat h30, take_append_cell (by omega)]

/-- A byte that fits the header is appended without an output (R43, R45, R46). -/
theorem stepCase_grow (h30 : s.cur.toNat ≤ 30) (h0 : s.cur.toNat = 0 → b = Config.hdr1)
    (h1 : s.cur.toNat = 1 → b = Config.hdr2) :
    StepCase (s.offer (.rx b)) ((rxCommon b s).setCur (s.cur + 1#6)) := by
  obtain hc | hc | ⟨h2, -⟩ | hc := cursor_cases (c := s.cur) (by omega)
  · obtain rfl := h0 (by simp [hc])
    rw [hc]; exact .syncHit s.inputs rfl hc
  · obtain rfl := h1 (by simp [hc])
    rw [hc]; exact .hdr2Hit s.inputs rfl hc
  · exact .fill b s.inputs rfl h2 h30
  · simp [hc] at h30

theorem StepCase.rx_grow_or_zero (h : StepCase (s.offer (.rx b)) t) :
    (s.cur.toNat ≤ 30 ∧ t = (rxCommon b s).setCur (s.cur + 1#6)) ∨ t.cur = 0#6 := by
  cases h with
  | idle h | rst _ h | poll _ h => cases h
  | syncHit _ h hc | hdr2Hit _ h hc =>
    cases h
    have hc' : s.cur = _ := hc
    exact .inl (by rw [hc']; exact ⟨by decide, rfl⟩)
  | fill _ _ h h2 h30 => cases h; exact .inl ⟨h30, rfl⟩
  | _ => exact .inr rfl

/-- Bytes that fit the header and do not complete the frame are appended without an output. -/
theorem grow_run (s : State) (bs : List Byte) (h31 : s.cur.toNat + bs.length ≤ 31)
    (hh : ∀ (i : Nat) (b : Byte), bs[i]? = some b →
      (s.cur.toNat + i = 0 → b = Config.hdr1) ∧ (s.cur.toNat + i = 1 → b = Config.hdr2)) :
    traceOutputs s (rxs bs) = List.replicate bs.length { } ∧
    ∃ t, traceEnd s (rxs bs) = .next t ∧ t.cur.toNat = s.cur.toNat + bs.length ∧ t.received = s.received ++ bs := by
  induction bs generalizing s with
  | nil => exact ⟨rfl, s, rfl, rfl, (List.append_nil _).symm⟩
  | cons b bs ih =>
    rw [List.length_cons] at h31
    obtain ⟨hb0, hb1⟩ := hh 0 b rfl
    have h30 : s.cur.toNat ≤ 30 := by omega
    have hstep := stepCase_grow h30 hb0 hb1
    have hcur := fill_cur_toNat h30
    obtain ⟨houts, t, hend, htcur, htrec⟩ := ih ((rxCommon b s).setCur (s.cur + 1#6))
      (by rw [State.setCur_cur, hcur]; omega)
      (fun i b' hb' => by
        have hi := hh (i + 1) b' hb'
        rw [State.setCur_cur, hcur]
        exact ⟨fun h => hi.1 (by omega), fun h => hi.2 (by omega)⟩)
    rw [rxs, List.map_cons, hstep.traceOutputs_cons, hstep.traceEnd_cons, ← rxs, houts]
    refine ⟨rfl, t, hend, ?_, ?_⟩
    · rw [htcur, State.setCur_cur, hcur, List.length_cons, Nat.add_right_comm, Nat.add_assoc]
    · rw [htrec, received_grow h30, List.append_assoc, List.singleton_append]

/-- What has been received of a frame is the end of the stream. -/
theorem received_suffix (bs : List Byte) (hc : s.cur.toNat < 32) (h : traceEnd s (rxs bs) = .next t) :
    t.received <:+ s.received ++ bs := by
  induction bs generalizing s with
  | nil => cases h; exact (List.append_nil _).symm ▸ List.suffix_rfl
  | cons b bs ih =>
    obtain ⟨u, hu, hend⟩ := traceEnd_cons_next h
    have htu := ih (hu.cur_lt hc) hend
    rw [← List.singleton_append, ← List.append_assoc]
    obtain ⟨h30, rfl⟩ | hu0 := hu.rx_grow_or_zero
    · rwa [received_grow h30] at htu
    · rw [received_eq_nil hu0] at htu
      exact htu.trans (List.suffix_append _ _)

end

end Sys2Proof.Machine
end

section
/-! PROOFS. Statements about traces (40_frame_assembler.md R50 to R53, 42_command_encoder.md R85, R86,
60_exceptions.md R94, R95, 70_reset_and_hazards.md R114 to R117). -/

namespace Sys2Proof.Machine

/-! ### Cells beyond the cursor -/

section
variable {s t s' : State} {e : Event} {b : Byte}

theorem agrees_of_cur_zero (hs : s.cur = 0#6) (ht : t.cur = 0#6) : s.Agrees t :=
  ⟨hs.trans ht.symm, fun i hi => absurd hi (by simp [hs])⟩

theorem State.Agrees.received_eq (h : s.Agrees t) : s.received = t.received := by
  obtain ⟨hcur, hcells⟩ := h
  refine List.ext_getElem (by simp [State.received, hcur]) fun i hi hi' => ?_
  have hlt : i < s.cur.toNat ∧ i < 32 := by simpa [State.received] using hi
  exact (received_getElem ⟨i, hlt.2⟩ hi).trans ((hcells ⟨i, hlt.2⟩ hlt.1).trans (received_getElem ⟨i, hlt.2⟩ hi').symm)

/-- The same byte appended to the same data. -/
theorem State.Agrees.append (h : s.Agrees t) {c : BitVec 6} (hc : c.toNat = s.cur.toNat + 1) :
    ((rxCommon b s).setCur c).Agrees ((rxCommon b t).setCur c) := by
  obtain ⟨hcur, hcells⟩ := h
  refine ⟨rfl, fun i hi => ?_⟩
  change i.val < c.toNat at hi
  rw [State.setCur_buf, State.setCur_buf, rxCommon_get, rxCommon_get, ← hcur]
  by_cases hic : i.val = s.cur.toNat
  · rw [if_pos hic, if_pos hic]
  · rw [if_neg hic, if_neg hic]
    exact hcells i (by omega)

theorem State.Agrees.completed_eq (h : s.Agrees t) (hc : s.cur = 31#6) : (rxCommon b s).buf = (rxCommon b t).buf := by
  apply Vector.toList_inj.mp
  rw [completed_toList hc, completed_toList (h.1 ▸ hc), h.received_eq]

theorem State.Agrees.xor31_eq (h : s.Agrees t) (hc : s.cur = 31#6) : xor31 s.buf = xor31 t.buf := by
  rw [xor31_eq_received hc, xor31_eq_received (h.1 ▸ hc), h.received_eq]

/-- States with the same data answer an event with the same output and again the same data. -/
theorem StepCase.agrees (h : StepCase (s.offer e) s') (ha : s.Agrees t) :
    ∃ t', StepCase (t.offer e) t' ∧ s'.out = t'.out ∧ s'.Agrees t' := by
  have hcur : s.cur = t.cur := ha.1
  cases h with
  | idle h => cases h
  | rst _ h hc => cases h; exact ⟨_, .rst t.inputs rfl (hcur ▸ hc), by simp, agrees_of_cur_zero (by simp) (by simp)⟩
  | poll _ h hc => cases h; exact ⟨_, .poll t.inputs rfl (hcur ▸ hc), rfl, ha⟩
  | syncHit _ h hc =>
    cases h
    exact ⟨_, .syncHit t.inputs rfl (hcur.symm.trans hc), rfl, ha.append (congrArg (BitVec.toNat · + 1) hc.symm)⟩
  | hdr2Hit _ h hc =>
    cases h
    exact ⟨_, .hdr2Hit t.inputs rfl (hcur.symm.trans hc), rfl, ha.append (congrArg (BitVec.toNat · + 1) hc.symm)⟩
  | fill b _ h h2 h30 =>
    cases h
    refine ⟨_, .fill b t.inputs rfl (hcur ▸ h2) (hcur ▸ h30), rfl, ?_⟩
    change State.Agrees _ ((rxCommon b t).setCur (t.cur + 1#6))
    exact hcur ▸ ha.append (fill_cur_toNat h30)
  | syncMiss b _ h hc hb =>
    cases h; exact ⟨_, .syncMiss b t.inputs rfl (hcur.symm.trans hc) hb, rfl, agrees_of_cur_zero rfl rfl⟩
  | hdr2Miss b _ h hc hb =>
    cases h; exact ⟨_, .hdr2Miss b t.inputs rfl (hcur.symm.trans hc) hb, rfl, agrees_of_cur_zero rfl rfl⟩
  | lastOk b _ h hc hb =>
    cases h
    refine ⟨_, .lastOk b t.inputs rfl (hcur.symm.trans hc) (hb.trans (ha.xor31_eq hc)), ?_, agrees_of_cur_zero rfl rfl⟩
    have hbuf : (rxCommon b s).buf = (rxCommon b t).buf := ha.completed_eq hc
    change (emitCompleted (rxCommon b s)).out = (emitCompleted (rxCommon b t)).out
    rw [emitCompleted_rxCommon_out, emitCompleted_rxCommon_out, hbuf]
  | lastBad b _ h hc hb =>
    cases h
    exact ⟨_, .lastBad b t.inputs rfl (hcur.symm.trans hc) (fun h => hb (h.trans (ha.xor31_eq hc).symm)), rfl,
      agrees_of_cur_zero rfl rfl⟩

end

/-- Settles O49: by induction on the trace, each step keeping the agreement. -/
theorem staleCellsUnobservable : Obligations.StaleCellsUnobservable := by
  intro tr
  induction tr with
  | nil => exact fun s t _ ha => ⟨rfl, s, t, rfl, rfl, ha⟩
  | cons e tr ih =>
    intro s t hc ha
    obtain ⟨s', hs⟩ := exists_stepCase (s := s.offer e) rfl hc
    obtain ⟨t', ht, hout, ha'⟩ := hs.agrees ha
    obtain ⟨houts, hends⟩ := ih s' t' (hs.cur_lt hc) ha'
    rw [hs.traceOutputs_cons, ht.traceOutputs_cons, hs.traceEnd_cons, ht.traceEnd_cons, hout, houts]
    exact ⟨rfl, hends⟩

end Sys2Proof.Machine
end

section
/-! PROOFS. What does not show in a trace: polls, the grouping of pending events, the order within a cycle; and how many
frames are reported (42_command_encoder.md R85, R86, 20_memory.md R27, 60_exceptions.md R94, R95). -/

namespace Sys2Proof.Machine

/-! ### FrameValid and the frames -/

/-- The three parts of a report come together or not at all. -/
def Output.ReportsTogether (o : Output) : Prop :=
  (o.diag = some .frameValid ↔ o.frame ≠ none) ∧ o.telemetry.record.isSome = o.frame.isSome

theorem StepCase.reportsTogether {s t : State} (h : StepCase s t) : t.out.ReportsTogether := by
  obtain ⟨b, rest, -, -, -, rfl⟩ | ⟨hf, hd, ht⟩ := h.frame_or_quiet
  · simp [Output.ReportsTogether, emitCompleted_rxCommon_out]
  · simp [Output.ReportsTogether, hf, hd, ht]

theorem report_counts (os : List Output) (h : ∀ o ∈ os, o.ReportsTogether) :
    (diagsOf os).count .frameValid = (framesOf os).length ∧ (recordsOf os).length = (framesOf os).length := by
  induction os with
  | nil => exact ⟨rfl, rfl⟩
  | cons o os ih =>
    obtain ⟨⟨hdf, hrf⟩, hrest⟩ := List.forall_mem_cons.mp h
    obtain ⟨ihd, ihr⟩ := ih hrest
    simp only [diagsOf, framesOf, recordsOf, List.filterMap_cons] at ihd ihr ⊢
    cases hf : o.frame with
    | none =>
      obtain hr : o.telemetry.record = none := by simpa [hf] using hrf
      have hd : o.diag ≠ some .frameValid := fun h => hdf.mp h hf
      cases hdg : o.diag with
      | none => simp [hr, ihd, ihr]
      | some d =>
        have hne : d ≠ .frameValid := fun h => hd (hdg.trans (congrArg some h))
        simp [hr, ihd, ihr, hne]
    | some f =>
      obtain ⟨r, hr⟩ := Option.isSome_iff_exists.mp (hrf.trans (by rw [hf]; rfl))
      have hd : o.diag = some .frameValid := hdf.mpr (by simp [hf])
      simp [hr, hd, ihd, ihr]

/-! ### Polls -/

/-- The trace without its polls. -/
def withoutPolls (tr : List Event) : List Event := tr.filter (fun e => decide (e ≠ .poll))

/-- The two lists of output records report the same. -/
def SameReports (os os' : List Output) : Prop :=
  diagsOf os' = diagsOf os ∧ framesOf os' = framesOf os ∧ recordsOf os' = recordsOf os

section
variable {s t u : State} {e : Event}

theorem SameReports.cons {os os' : List Output} (h : SameReports os os') (o : Output) :
    SameReports (o :: os) (o :: os') := by
  obtain ⟨hd, hf, hr⟩ := h
  simp only [SameReports, diagsOf, framesOf, recordsOf, List.filterMap_cons] at *
  rw [hd, hf, hr]
  exact ⟨rfl, rfl, rfl⟩

theorem SameReports.cons_tx {os os' : List Output} (h : SameReports os os') (tx : List SinkOp) :
    SameReports ({ tx := tx } :: os) os' := h

/-- A poll changes the output record only. -/
theorem StepCase.poll_eq (h : StepCase (s.offer .poll) t) :
    t = { s with out := { tx := [.write pollCommand, .flush] } } := by
  cases h with
  | poll => rfl
  | idle h | rst _ h | syncHit _ h | syncMiss _ _ h | hdr2Hit _ h | hdr2Miss _ _ h | fill _ _ h | lastOk _ _ h
  | lastBad _ _ h => cases h

theorem StepCase.tx_eq_nil (h : StepCase (s.offer e) t) (he : e ≠ .poll) : t.out.tx = [] := by
  cases h with
  | poll _ h => cases h; exact absurd rfl he
  | _ => rfl

/-- R85, R86. -/
theorem trace_withoutPolls (tr : List Event) (h : traceEnd s tr = .next t) :
    ∃ t', traceEnd s (withoutPolls tr) = .next t' ∧ t'.cur = t.cur ∧ t'.buf = t.buf ∧
      SameReports (traceOutputs s tr) (traceOutputs s (withoutPolls tr)) ∧
      sinkOpsOf (traceOutputs s tr) = (List.replicate (tr.count .poll) [SinkOp.write pollCommand, .flush]).flatten := by
  induction tr generalizing s with
  | nil => cases h; exact ⟨_, rfl, rfl, rfl, ⟨rfl, rfl, rfl⟩, rfl⟩
  | cons e tr ih =>
    obtain ⟨u, hu, hend⟩ := traceEnd_cons_next h
    obtain ⟨t', ht', hcur, hbuf, hsame, hsink⟩ := ih hend
    rw [hu.traceOutputs_cons]
    by_cases he : e = .poll
    · subst he
      have hu' := hu.poll_eq
      obtain ⟨houts, t'', ht'', hcur', hbuf'⟩ := trace_withOut ht' s.out
      have hs : { u with out := s.out } = s := by rw [hu']
      rw [hs] at houts ht''
      have hskip : withoutPolls (.poll :: tr) = withoutPolls tr := rfl
      rw [hskip, houts, List.count_cons_self, List.replicate_succ, List.flatten_cons, ← hsink]
      refine ⟨t'', ht'', hcur'.trans hcur, hbuf'.trans hbuf, ?_, ?_⟩
      · rw [hu'] at hsame ⊢
        exact hsame.cons_tx _
      · rw [hu']; rfl
    · have hkeep : withoutPolls (e :: tr) = e :: withoutPolls tr := by simp [withoutPolls, he]
      rw [hkeep, hu.traceOutputs_cons, hu.traceEnd_cons, List.count_cons_of_ne he, ← hsink]
      refine ⟨t', ht', hcur, hbuf, hsame.cons u.out, ?_⟩
      simp [sinkOpsOf, hu.tx_eq_nil he]

end

/-! ### Pending traces -/

section
variable {s t : State}

theorem core_run_next (k : Nat) (h : step s = .next t) :
    Host.Core.run Sys2Proof.core (k + 1) s = Host.Core.run Sys2Proof.core k t := by
  have hcore : Sys2Proof.core.step s = .next t := h
  simp only [Host.Core.run, hcore]

theorem core_run_refused {r : Refusal} (k : Nat) (h : step s = .refused r) :
    Host.Core.run Sys2Proof.core (k + 1) s = .refused r := by
  have hcore : Sys2Proof.core.step s = .refused r := h
  simp only [Host.Core.run, hcore]

/-- With no event pending behind it, an offered event is the only one. -/
theorem core_run_pending (s : State) (tr : List Event) :
    Host.Core.run Sys2Proof.core tr.length { s with inputs := tr } = traceEnd { s with inputs := [] } tr := by
  induction tr generalizing s with
  | nil => rfl
  | cons e tr ih =>
    rw [List.length_cons]
    rcases Nat.lt_or_ge s.cur.toNat 32 with hc | hc
    · obtain ⟨t, ht⟩ := exists_stepCase (s := { s with inputs := e :: tr }) rfl hc
      have hoffer : StepCase (State.offer { s with inputs := [] } e) { t with inputs := [] } :=
        ht.withPending rfl [] s.out
      have htr : { t with inputs := tr } = t := by rw [← show t.inputs = tr from ht.inputs_eq]
      rw [core_run_next _ ht.step_eq, hoffer.traceEnd_cons, ← ih t, htr]
    · have hoffer : step (State.offer { s with inputs := [] } e) = .refused (.undecodable .cursorUnreachable) :=
        step_unreachable rfl hc
      rw [traceEnd_cons_refused tr hoffer]
      exact core_run_refused (s := { s with inputs := e :: tr }) _ (step_unreachable rfl hc)

end

/-! ### A byte and a poll in one cycle -/

/-- The output record of a poll, before or after another record that sends nothing, shows the same ports (R95). -/
theorem portsOf_poll_comm (o : Output) (tx : List SinkOp) (ho : o.tx = []) :
    portsOf [o, { tx := tx }] = portsOf [{ tx := tx }, o] := by
  have hd : diagsOf [o, { tx := tx }] = diagsOf [{ tx := tx }, o] := by cases h : o.diag <;> simp [diagsOf, h]
  have hf : framesOf [o, { tx := tx }] = framesOf [{ tx := tx }, o] := by cases h : o.frame <;> simp [framesOf, h]
  have hr : recordsOf [o, { tx := tx }] = recordsOf [{ tx := tx }, o] := by
    cases h : o.telemetry.record <;> simp [recordsOf, List.filterMap_cons, h]
  have hs : sinkOpsOf [o, { tx := tx }] = sinkOpsOf [{ tx := tx }, o] := by simp [sinkOpsOf, ho]
  rw [portsOf, hd, hf, hr, hs, portsOf]

/-! ### The obligations -/

/-- Settles O45: in every step the parts of a report come together. -/
theorem frameValidCountsFrames : Obligations.FrameValidCountsFrames := by
  intro s tr
  have hall := forall_mem_traceOutputs (fun _ _ => StepCase.reportsTogether) s tr
  exact ⟨fun o ho => (hall o ho).1, report_counts _ hall⟩

/-- Settles O47: by induction on the trace, the pending events cut off at each step. -/
theorem pendingTraceIsRun : Obligations.PendingTraceIsRun := core_run_pending

/-- Settles O48. -/
theorem pollsDoNotInterfere : Obligations.PollsDoNotInterfere := by
  intro s t tr h
  obtain ⟨t', hend, hcur, hbuf, ⟨hd, hf, hr⟩, hsink⟩ := trace_withoutPolls tr h
  exact ⟨t', hend, hcur, hbuf, hd, hf, hr, hsink⟩

/-- Settles O58: the poll changes the output record only, which the byte's step does not look at. -/
theorem cycleOrderUnobservable : Obligations.CycleOrderUnobservable := by
  intro s b hc
  obtain ⟨t, ht⟩ := exists_stepCase (s := s.offer (.rx b)) rfl hc
  have hpoll : ∀ u : State, u.cur.toNat < 32 →
      StepCase (u.offer .poll) { u with out := { tx := [.write pollCommand, .flush] } } :=
    fun u hu => .poll u.inputs rfl hu
  have hpt := hpoll t (ht.cur_lt hc)
  have hps := hpoll s hc
  have htp := ht.offer_withOut { tx := [.write pollCommand, .flush] }
  rw [ht.traceOutputs_cons, hpt.traceOutputs_cons, hps.traceOutputs_cons, htp.traceOutputs_cons, ht.traceEnd_cons,
    hpt.traceEnd_cons, hps.traceEnd_cons, htp.traceEnd_cons]
  exact ⟨portsOf_poll_comm t.out _ (ht.tx_eq_nil nofun), ⟨_, t, rfl, rfl, rfl, rfl⟩, rfl⟩

end Sys2Proof.Machine
end

section
/-! PROOFS. Frames in a stream of bytes: accepted, discarded, where they can stand, and what flipped bits, rotation,
stray headers and truncation do (40_frame_assembler.md R51 to R53, 70_reset_and_hazards.md R114 to R117). -/

namespace Sys2Proof.Machine

/-! ### A whole frame from cursor 0 -/

section
variable {s t : State} {f : Frame}

/-- The first 31 bytes of a frame with a good header (R43, R45, R46). -/
theorem head_run (hs : s.cur = 0#6) (hh : hasHeader f = true) :
    traceOutputs s (rxs (f.toList.take 31)) = List.replicate 31 { } ∧
    ∃ t, traceEnd s (rxs (f.toList.take 31)) = .next t ∧ t.cur = 31#6 ∧ t.received = f.toList.take 31 := by
  obtain ⟨hf0, hf1⟩ := (hasHeader_iff f).mp hh
  have hlen : (f.toList.take 31).length = 31 := by simp
  have hcur : s.cur.toNat = 0 := by simp [hs]
  obtain ⟨houts, t, hend, htcur, htrec⟩ := grow_run s (f.toList.take 31) (by omega) (by
    intro i b hb
    rw [hcur, Nat.zero_add]
    constructor
    · rintro rfl
      have hb0 : f.get 0 = b := by simpa [Vector.get] using hb
      exact hb0.symm.trans hf0
    · rintro rfl
      have hb1 : f.get 1 = b := by simpa [Vector.get] using hb
      exact hb1.symm.trans hf1)
  rw [hlen] at houts
  rw [received_eq_nil hs, List.nil_append] at htrec
  exact ⟨houts, t, hend, BitVec.eq_of_toNat_eq (by rw [htcur, hcur, hlen]; rfl), htrec⟩

/-- A frame with a good header: 31 steps without output, then the step of its last byte. -/
theorem frame_run (hs : s.cur = 0#6) (hh : hasHeader f = true) :
    ∃ t : State, t.cur = 31#6 ∧ t.received = f.toList.take 31 ∧ ∀ u, StepCase (t.offer (.rx (f.get 31))) u →
      traceOutputs s (rxs f.toList) = List.replicate 31 ({ } : Output) ++ [u.out] ∧
      traceEnd s (rxs f.toList) = .next u := by
  obtain ⟨houts, t, hend, hcur, hrec⟩ := head_run hs hh
  refine ⟨t, hcur, hrec, fun u hu => ?_⟩
  have hsplit : rxs f.toList = rxs (f.toList.take 31) ++ [.rx (f.get 31)] := by
    conv => lhs; rw [toList_eq_take_append_last f, rxs, List.map_append]
    rfl
  obtain ⟨ho, he⟩ := trace_append hend [.rx (f.get 31)]
  rw [hsplit, ho, he, houts, hu.traceOutputs_cons, hu.traceEnd_cons]
  exact ⟨rfl, rfl⟩

theorem rawFrame_run (hs : s.cur = 0#6) (hf : isRawFrame f = true) :
    traceOutputs s (rxs f.toList) = List.replicate 31 ({ } : Output) ++
      [{ diag := some .frameValid, frame := some f, telemetry := (decodeRecord f).port }] ∧
    ∃ t, traceEnd s (rxs f.toList) = .next t ∧ t.cur = 0#6 := by
  obtain ⟨hh, hlast⟩ := (isRawFrame_iff_checksum f).mp hf
  obtain ⟨t, hcur, hrec, hrun⟩ := frame_run hs hh
  have hsum : f.get 31 = xor31 t.buf := by rw [xor31_eq_received hcur, hrec, hlast, xor31]
  have hbuf : (rxCommon (f.get 31) t).buf = f := by
    apply Vector.toList_inj.mp
    rw [completed_toList hcur, hrec, ← toList_eq_take_append_last]
  obtain ⟨houts, hend⟩ := hrun _ (.lastOk _ t.inputs rfl hcur hsum)
  refine ⟨houts.trans ?_, _, hend, rfl⟩
  change _ ++ [(emitCompleted (rxCommon (f.get 31) t)).out] = _
  rw [emitCompleted_rxCommon_out, hbuf]

theorem badChecksum_run (hs : s.cur = 0#6) (hh : hasHeader f = true) (hlast : f.get 31 ≠ xor31 f) :
    traceOutputs s (rxs f.toList) = List.replicate 31 ({ } : Output) ++ [{ diag := some .checksumError }] ∧
    ∃ t, traceEnd s (rxs f.toList) = .next t ∧ t.cur = 0#6 := by
  obtain ⟨t, hcur, hrec, hrun⟩ := frame_run hs hh
  have hsum : f.get 31 ≠ xor31 t.buf := by rwa [xor31_eq_received hcur, hrec]
  obtain ⟨houts, hend⟩ := hrun _ (.lastBad _ t.inputs rfl hcur hsum)
  exact ⟨houts, _, hend, rfl⟩

/-! ### Where frames stand in a stream -/

/-- The stream around the step that gave output record `i`. -/
theorem rxs_output_split {bs : List Byte} {i : Nat} {o : Output} (h : (traceOutputs s (rxs bs))[i]? = some o) :
    ∃ bs₁ b bs₂ u v, bs = bs₁ ++ b :: bs₂ ∧ bs₁.length = i ∧ traceEnd s (rxs bs₁) = .next u ∧
      StepCase (u.offer (.rx b)) v ∧ v.out = o ∧
      ∀ k, (traceOutputs s (rxs bs))[i + 1 + k]? = (traceOutputs v (rxs bs₂))[k]? := by
  induction bs generalizing s i with
  | nil => simp [rxs] at h
  | cons b bs ih =>
    rw [rxs, List.map_cons, ← rxs] at h ⊢
    cases hstep : step (s.offer (.rx b)) with
    | fault r => cases r
    | refused r => simp [traceOutputs, runTrace, hstep] at h
    | next u =>
      rw [traceOutputs_cons _ hstep] at h ⊢
      cases i with
      | zero =>
        refine ⟨[], b, bs, s, u, rfl, rfl, rfl, step_cases hstep, Option.some.inj h, fun k => ?_⟩
        rw [Nat.zero_add, Nat.add_comm, List.getElem?_cons_succ]
      | succ i =>
        obtain ⟨bs₁, b', bs₂, u', v, rfl, hlen, hend, hcase, hout, hrest⟩ := ih h
        refine ⟨b :: bs₁, b', bs₂, u', v, rfl, by rw [List.length_cons, hlen], ?_, hcase, hout, fun k => ?_⟩
        · rw [rxs, List.map_cons, traceEnd_cons _ hstep]; exact hend
        · rw [Nat.add_right_comm, List.getElem?_cons_succ]; exact hrest k

/-- A frame is reported for the last 32 bytes of the stream, and the assembler is empty behind it (R52). -/
theorem frame_is_suffix {bs : List Byte} {i : Nat} {o : Output} (hs : s.cur = 0#6)
    (ho : (traceOutputs s (rxs bs))[i]? = some o) (hf : o.frame = some f) :
    isRawFrame f = true ∧ i < bs.length ∧ f.toList <:+ bs.take (i + 1) ∧
    ∃ bs₂ v, v.cur = 0#6 ∧ ∀ k, (traceOutputs s (rxs bs))[i + 1 + k]? = (traceOutputs v (rxs bs₂))[k]? := by
  obtain ⟨bs₁, b, bs₂, u, v, rfl, rfl, hend, hcase, rfl, hrest⟩ := rxs_output_split ho
  obtain ⟨b', rest, hin, hcur, hsum, rfl⟩ | ⟨hnone, -⟩ := hcase.frame_or_quiet
  · cases hin
    have hbuf : (rxCommon b u).buf = f := Option.some.inj hf
    have hcur' : u.cur = 31#6 := hcur
    refine ⟨hbuf ▸ isRawFrame_completed (traceEnd_inv (inv_of_cur_zero hs) hend) hcur hsum, by simp, ?_, bs₂, _, rfl,
      hrest⟩
    obtain ⟨pre, hpre⟩ := received_suffix bs₁ (by simp [hs]) hend
    rw [received_eq_nil hs, List.nil_append] at hpre
    have htake : (bs₁ ++ b :: bs₂).take (bs₁.length + 1) = bs₁ ++ [b] := by
      rw [List.append_cons, List.take_left' (by simp)]
    exact ⟨pre, by rw [htake, ← hbuf, completed_toList hcur', ← List.append_assoc, hpre]⟩
  · rw [hnone] at hf; cases hf

/-- A suffix of length 32 of the stream up to and with byte `i`, as a slice of the stream. -/
theorem eq_slice_of_suffix {α : Type} {l bs : List α} {i : Nat} (hl : l.length = 32) (hi : i < bs.length)
    (h : l <:+ bs.take (i + 1)) : 31 ≤ i ∧ l = (bs.drop (i - 31)).take 32 := by
  have hlen := h.length_le
  rw [List.length_take, hl] at hlen
  refine ⟨by omega, ?_⟩
  have hdrop := List.suffix_iff_eq_drop.mp h
  rw [List.length_take, hl, Nat.min_eq_left (by omega), List.drop_take, show i + 1 - 32 = i - 31 by omega,
    show i + 1 - (i - 31) = 32 by omega] at hdrop
  exact hdrop

theorem frame_is_slice {bs : List Byte} {i : Nat} {o : Output} (hs : s.cur = 0#6)
    (ho : (traceOutputs s (rxs bs))[i]? = some o) (hf : o.frame = some f) :
    isRawFrame f = true ∧ 31 ≤ i ∧ f.toList = (bs.drop (i - 31)).take 32 := by
  obtain ⟨hraw, hi, hsuffix, -⟩ := frame_is_suffix hs ho hf
  exact ⟨hraw, eq_slice_of_suffix (Vector.length_toList) hi hsuffix⟩

/-- 32 bytes that are no RawFrame give no frame. -/
theorem framesOf_eq_nil_of_not_raw (hs : s.cur = 0#6) (hf : isRawFrame f ≠ true) :
    framesOf (traceOutputs s (rxs f.toList)) = [] := by
  refine List.filterMap_eq_nil_iff.mpr fun o ho => Option.eq_none_iff_forall_not_mem.mpr fun g hg => hf ?_
  obtain ⟨i, hi⟩ := List.mem_iff_getElem?.mp ho
  obtain ⟨hraw, h31, hslice⟩ := frame_is_slice hs hi hg
  have hlen := congrArg List.length hslice
  simp only [Vector.length_toList, List.length_take, List.length_drop] at hlen
  obtain rfl : i = 31 := by omega
  have hgf : g = f := Vector.toList_inj.mp (hslice.trans (List.take_of_length_le (by simp)))
  exact hgf ▸ hraw

end

/-! ### Flipped bits and rotation -/

section
variable {f : Frame} {i : Fin 32}

theorem xorBytes_set_xor (l : List Byte) (i : Nat) (h : i < l.length) (d : Byte) :
    xorBytes (l.set i (l[i] ^^^ d)) = xorBytes l ^^^ d := by
  induction l generalizing i with
  | nil => simp at h
  | cons b bs ih =>
    cases i with
    | zero => simp [BitVec.xor_assoc, BitVec.xor_comm]
    | succ i =>
      have hi : i < bs.length := by simpa using h
      simp [ih i hi, BitVec.xor_assoc]

/-- The frame with the bits `d` of its byte `i` flipped. -/
def flipByte (f : Frame) (i : Fin 32) (d : Byte) : Frame := f.setIfInBounds i.val (f.get i ^^^ d)

theorem flipByte_get (d : Byte) (k : Fin 32) :
    (flipByte f i d).get k = if k.val = i.val then f.get i ^^^ d else f.get k :=
  append_cell f i.val _ k

theorem xorBytes_flipByte (d : Byte) : xorBytes (flipByte f i d).toList = xorBytes f.toList ^^^ d := by
  rw [flipByte, Vector.toList_setIfInBounds]
  exact xorBytes_set_xor f.toList i.val (by simp) d

theorem hasHeader_flipByte (d : Byte) (hi : 2 ≤ i.val) : hasHeader (flipByte f i d) = hasHeader f := by
  have h0 : (0 : Fin 32).val ≠ i.val := by simp; omega
  have h1 : (1 : Fin 32).val ≠ i.val := by simp; omega
  rw [hasHeader, flipByte_get, flipByte_get, if_neg h0, if_neg h1, hasHeader]

theorem one_shiftLeft_ne_zero : ∀ j < 8, 1#8 <<< j ≠ 0#8 := by decide

theorem xor_ne_self {b d : Byte} (hd : d ≠ 0#8) : b ^^^ d ≠ b := by
  intro h
  have h0 := congrArg (b ^^^ ·) h
  simp only [← BitVec.xor_assoc, BitVec.xor_self, BitVec.zero_xor] at h0
  exact hd h0

theorem xorBytes_flipByte_ne_zero {d : Byte} (hf : isRawFrame f = true) (hd : d ≠ 0#8) :
    xorBytes (flipByte f i d).toList ≠ 0#8 := by
  obtain ⟨-, h0⟩ := (isRawFrame_iff f).mp hf
  rwa [xorBytes_flipByte, h0, BitVec.zero_xor]

end

/-! ### Streams with polls between -/

/-- A trace of bytes and polls, without its polls, is a stream of bytes. -/
theorem withoutPolls_eq_rxs {tr : List Event} (h : .rst ∉ tr) : ∃ bs, withoutPolls tr = rxs bs := by
  induction tr with
  | nil => exact ⟨[], rfl⟩
  | cons e tr ih =>
    obtain ⟨hne, hrest⟩ := List.ne_and_not_mem_of_not_mem_cons h
    obtain ⟨bs, hbs⟩ := ih hrest
    cases e with
    | rst => exact absurd rfl hne
    | poll => exact ⟨bs, hbs⟩
    | rx b => exact ⟨b :: bs, congrArg (Event.rx b :: ·) hbs⟩

/-! ### The obligations -/

/-- Settles O50. -/
theorem everyRawFrameAccepted : Obligations.EveryRawFrameAccepted := fun _ _ => rawFrame_run

/-- Settles O51. -/
theorem badChecksumDiscarded : Obligations.BadChecksumDiscarded := fun _ _ => badChecksum_run

/-- Settles O52: a frame is the end of the stream so far, and behind it the assembler is empty as at the start. -/
theorem framesAreRunsOfTheStream : Obligations.FramesAreRunsOfTheStream := by
  refine fun s bs hs => ⟨fun i o f => frame_is_slice hs, fun i j o p ho hp hof hpf hij => ?_⟩
  obtain ⟨f, hf⟩ := Option.ne_none_iff_exists'.mp hof
  obtain ⟨g, hg⟩ := Option.ne_none_iff_exists'.mp hpf
  obtain ⟨-, -, -, bs₂, v, hv, hrest⟩ := frame_is_suffix hs ho hf
  obtain ⟨k, rfl⟩ := Nat.exists_eq_add_of_le (Nat.succ_le_of_lt hij)
  rw [Nat.succ_eq_add_one, hrest] at hp
  obtain ⟨-, hk, -⟩ := frame_is_slice hv hp hg
  omega

/-- Settles O53: the flipped frame is no RawFrame; which event it gives depends on the byte. -/
theorem singleBitErrorsRejected : Obligations.SingleBitErrorsRejected := by
  intro s f g i j hs hf hj hg
  obtain rfl : g = flipByte f i (1#8 <<< j) := hg
  have hd := one_shiftLeft_ne_zero j hj
  have hxor := xorBytes_flipByte_ne_zero (i := i) hf hd
  obtain ⟨hh, -⟩ := (isRawFrame_iff f).mp hf
  obtain ⟨hf0, hf1⟩ := (hasHeader_iff f).mp hh
  refine ⟨framesOf_eq_nil_of_not_raw hs fun hraw => hxor ((isRawFrame_iff _).mp hraw).2, fun hi => ?_, fun hi => ?_,
    fun hi => ?_⟩
  · obtain ⟨houts, hend⟩ := badChecksum_run hs ((hasHeader_flipByte _ hi).trans hh)
      (fun h => hxor ((last_eq_xor31_iff _).mp h))
    rw [houts]
    exact ⟨rfl, hend⟩
  · obtain rfl : i = 1 := Fin.ext hi
    have hg0 : (flipByte f 1 (1#8 <<< j)).get 0 = Config.hdr1 := (flipByte_get _ 0).trans hf0
    have hg1 : (flipByte f 1 (1#8 <<< j)).get 1 ≠ Config.hdr2 := by
      rw [flipByte_get, if_pos rfl, hf1]
      exact xor_ne_self hd
    obtain ⟨t, -, hrun⟩ := strayHeader_run hs hg1
    rw [toList_eq_cons_cons, hg0, (hrun _).1]
    rfl
  · obtain rfl : i = 0 := Fin.ext hi
    have hg0 : (flipByte f 0 (1#8 <<< j)).get 0 ≠ Config.hdr1 := by
      rw [flipByte_get, if_pos rfl, hf0]
      exact xor_ne_self hd
    have hg1 : (flipByte f 0 (1#8 <<< j)).get 1 = Config.hdr2 := (flipByte_get _ 1).trans hf1
    rw [toList_eq_cons_cons, hg1]
    generalize (flipByte f 0 (1#8 <<< j)).get 0 = b at hg0
    obtain ⟨houts, t, hend, -⟩ := syncMiss_run s [b, Config.hdr2] hs (by simp [hg0]; decide)
    have hsplit := (trace_append hend (rxs ((flipByte f 0 (1#8 <<< j)).toList.drop 2))).1
    rw [houts] at hsplit
    exact congrArg (List.take 2) hsplit

/-- Settles O54: the two flips cancel in the exclusive-OR, and the header is not touched. -/
theorem doubleFlipUndetected : Obligations.DoubleFlipUndetected := by
  intro f g i k j hf hik hi hk hj hg
  have hki : k.val ≠ i.val := fun h => hik (Fin.ext h.symm)
  have hgk : (flipByte f i (1#8 <<< j)).get k = f.get k := by rw [flipByte_get, if_neg hki]
  obtain rfl : g = flipByte (flipByte f i (1#8 <<< j)) k (1#8 <<< j) := by rw [hg, flipByte.eq_def _ k, hgk, flipByte]
  obtain ⟨hh, hxor⟩ := (isRawFrame_iff f).mp hf
  constructor
  · rw [isRawFrame_iff, hasHeader_flipByte _ hk, hasHeader_flipByte _ hi, xorBytes_flipByte, xorBytes_flipByte, hxor]
    exact ⟨hh, by rw [BitVec.zero_xor, BitVec.xor_self]⟩
  · intro h
    have hcell := congrArg (Vector.get · k) h
    simp only [flipByte_get, if_true, if_neg hki] at hcell
    exact xor_ne_self (one_shiftLeft_ne_zero j hj) hcell

/-- Settles O55: the exclusive-OR does not see the rotation, and the inner pair becomes the header. -/
theorem rotatedFrameStillValid : Obligations.RotatedFrameStillValid := by
  intro f g j hf h0 h1 hg
  obtain ⟨-, hxor⟩ := (isRawFrame_iff f).mp hf
  have hget : ∀ (k : Nat) (hk : k < 2), g.get ⟨k, by omega⟩ = f.get ⟨j.val + k, by omega⟩ := by
    intro k hk
    have hcell : g.toList[k]? = f.toList[j.val + k]? := by
      rw [hg, List.getElem?_append_left (by simp; omega), List.getElem?_drop]
    rw [List.getElem?_eq_getElem (by simp; omega), List.getElem?_eq_getElem (by simp; omega)] at hcell
    exact Option.some.inj hcell
  refine (isRawFrame_iff g).mpr ⟨(hasHeader_iff g).mpr ⟨(hget 0 (by decide)).trans h0, (hget 1 (by decide)).trans h1⟩,
    ?_⟩
  rw [hg, xorBytes_perm List.perm_append_comm, List.take_append_drop, hxor]

/-- Settles O56: the frame's header byte is taken for a bad second header byte, and no other byte starts a frame. -/
theorem strayHeaderLosesTheFrame : Obligations.StrayHeaderLosesTheFrame := by
  intro s f hs hf hne
  obtain ⟨hh, -⟩ := (isRawFrame_iff f).mp hf
  obtain ⟨hf0, -⟩ := (hasHeader_iff f).mp hh
  have htail : f.toList = Config.hdr1 :: f.toList.drop 1 := by
    conv => lhs; rw [toList_eq_cons_cons, hf0]
    rw [toList_eq_cons_cons f]; rfl
  have hmiss : ∀ b ∈ f.toList.drop 1, b ≠ Config.hdr1 := by
    intro b hb
    obtain ⟨k, hk, rfl⟩ := List.mem_iff_getElem.mp hb
    rw [List.getElem_drop]
    have hk' : k < 31 := by simpa using hk
    exact hne ⟨1 + k, by omega⟩ (by simp)
  obtain ⟨t, ht, hrun⟩ := strayHeader_run (b := Config.hdr1) hs (by decide)
  obtain ⟨houts, hend⟩ := hrun (f.toList.drop 1)
  obtain ⟨houts', hend'⟩ := syncMiss_run t _ ht hmiss
  rw [htail, houts, hend, houts', List.length_drop, Vector.length_toList]
  exact ⟨rfl, hend'⟩

/-- Settles O57: without its polls the trace is a run of fills. -/
theorem partialFrameOnlyGrows : Obligations.PartialFrameOnlyGrows := by
  intro s tr h2 hrst h31
  change s.cur.toNat + (withoutPolls tr).length ≤ 31 at h31
  obtain ⟨t, ht⟩ := exists_traceEnd (s := s) tr (by omega)
  obtain ⟨t', ht', hcur, hbuf, ⟨hd, hf, -⟩, -⟩ := trace_withoutPolls tr ht
  obtain ⟨bs, hbs⟩ := withoutPolls_eq_rxs hrst
  have hlen : (withoutPolls tr).length = bs.length := by rw [hbs, rxs, List.length_map]
  obtain ⟨houts, u, hu, hucur, hurec⟩ := grow_run s bs (by omega) (fun i b _ => ⟨by omega, by omega⟩)
  rw [hbs] at ht' hd hf
  cases ht'.symm.trans hu
  rw [← hd, ← hf, houts]
  refine ⟨by simp [diagsOf], by simp [framesOf], t, ht, ?_, fun i hi => ?_⟩
  · rw [← hcur, hucur, ← hlen]; rfl
  · have hs : i.val < s.received.length := by rw [received_length (by omega)]; exact hi
    have ht : i.val < t'.received.length := by rw [hurec, List.length_append]; omega
    calc t.buf.get i = t'.received[i.val] := by rw [received_getElem, hbuf]
      _ = s.received[i.val] := by simp only [hurec, List.getElem_append_left hs]
      _ = s.buf.get i := received_getElem i hs

end Sys2Proof.Machine
end

section
/-! PROOFS. The telemetry record: its fields as slices of the frame, the field operations in any order, the fault bits
and the decimal rendering (41_telemetry_decoder.md R60, R75 to R80, 30_encoding.md R31, R35, R36). -/

namespace Sys2Proof.Machine

/-! ### Little-endian numbers of parts of a sequence -/

theorem leNat_append (l m : List Byte) : leNat (l ++ m) = leNat l + 256 ^ l.length * leNat m := by
  induction l with
  | nil => simp [leNat]
  | cons b bs ih => rw [List.cons_append, leNat, ih, leNat, List.length_cons, Nat.pow_succ']; ring

/-- The middle of a number is the number of the middle bytes. -/
theorem leNat_slice (l : List Byte) (a n : Nat) (h : a + n ≤ l.length) :
    leNat l / 256 ^ a % 256 ^ n = leNat ((l.drop a).take n) := by
  have htake : (l.take a).length = a := by rw [List.length_take]; omega
  have hmid : ((l.drop a).take n).length = n := by rw [List.length_take, List.length_drop]; omega
  have hlow := leNat_lt (l.take a)
  have hmidlt := leNat_lt ((l.drop a).take n)
  rw [htake] at hlow
  rw [hmid] at hmidlt
  conv => lhs; rw [← List.take_append_drop a l, leNat_append, htake, Nat.add_mul_div_left _ _ (by positivity),
    Nat.div_eq_of_lt hlow, Nat.zero_add, ← List.take_append_drop n (l.drop a), leNat_append, hmid,
    Nat.add_mul_mod_self_left, Nat.mod_eq_of_lt hmidlt]

theorem leNat_injective {l m : List Byte} (hlen : l.length = m.length) (h : leNat l = leNat m) : l = m := by
  refine List.ext_getElem hlen fun i hi hi' => BitVec.eq_of_toNat_eq ?_
  rw [← leNat_byte l i hi, ← leNat_byte m i hi', h]

/-! ### The fields of a frame -/

section
variable (f : Frame)

/-- The bytes of a field (30_encoding.md R31). -/
def fieldBytes (n : FieldName) : List Byte := (f.toList.drop n.offset).take n.bytes

theorem offset_add_bytes_le (n : FieldName) : n.offset + n.bytes ≤ 31 := by
  cases n <;> decide

theorem memRead_zero (a : Nat) : memRead f a 0 = 0 := by
  rw [memRead, List.take_zero, leNat]

theorem memRead_succ (a n : Nat) (h : a < 32) :
    memRead f a (n + 1) = (f.get ⟨a, h⟩).toNat + 256 * memRead f (a + 1) n := by
  rw [memRead, List.drop_eq_getElem_cons (by simpa using h), List.take_succ_cons, leNat]
  rfl

theorem rawByte_eq_memRead (a : Nat) (h : a < 32) : (rawByte f ⟨a, h⟩).toNat = memRead f a 1 := by
  rw [rawByte, memRead_succ f a 0 h, memRead_zero]; omega

theorem u16le_eq_memRead (a : Nat) (h : a + 1 < 32) :
    (u16le f ⟨a, by omega⟩ ⟨a + 1, h⟩).toNat = memRead f a 2 := by
  rw [u16le_toNat, memRead_succ f a 1 (by omega), memRead_succ f (a + 1) 0 h, memRead_zero]; omega

theorem u24le_eq_memRead (a : Nat) (h : a + 2 < 32) :
    (u24le f ⟨a, by omega⟩ ⟨a + 1, by omega⟩ ⟨a + 2, h⟩).toNat = memRead f a 3 := by
  rw [u24le_toNat, memRead_succ f a 2 (by omega), memRead_succ f (a + 1) 1 (by omega), memRead_succ f (a + 2) 0 h,
    memRead_zero]
  omega

theorem u32le_eq_memRead (a : Nat) (h : a + 3 < 32) :
    (u32le f ⟨a, by omega⟩ ⟨a + 1, by omega⟩ ⟨a + 2, by omega⟩ ⟨a + 3, h⟩).toNat = memRead f a 4 := by
  rw [u32le_toNat, memRead_succ f a 3 (by omega), memRead_succ f (a + 1) 2 (by omega),
    memRead_succ f (a + 2) 1 (by omega), memRead_succ f (a + 3) 0 h, memRead_zero]
  omega

/-- Each field is the little-endian read at its place (20_memory.md R22). -/
theorem raw_eq_memRead (n : FieldName) : (decodeRecord f).raw n = memRead f n.offset n.bytes := by
  cases n with
  | energyTotal => exact u24le_eq_memRead f 17 (by decide)
  | faultCode => exact u32le_eq_memRead f 20 (by decide)
  | runStatus => exact rawByte_eq_memRead f 24 (by decide)
  | powerFactor => exact rawByte_eq_memRead f 29 (by decide)
  | dspVersion => exact rawByte_eq_memRead f 30 (by decide)
  | solarVoltage1 => exact u16le_eq_memRead f 3 (by decide)
  | solarCurrent => exact u16le_eq_memRead f 5 (by decide)
  | solarVoltage2 => exact u16le_eq_memRead f 7 (by decide)
  | lineVoltage => exact u16le_eq_memRead f 9 (by decide)
  | lineCurrent => exact u16le_eq_memRead f 11 (by decide)
  | temperature => exact u16le_eq_memRead f 13 (by decide)
  | energyToday => exact u16le_eq_memRead f 15 (by decide)
  | frequency => exact u16le_eq_memRead f 25 (by decide)
  | operationTime => exact u16le_eq_memRead f 27 (by decide)

theorem memRead_eq_slice (a n : Nat) (h : a + n ≤ 32) :
    memRead f a n = ((frameBits f).extractLsb' (8 * a) (8 * n)).toNat := by
  rw [memRead, ← leNat_slice _ a n (by simpa using h), BitVec.extractLsb'_toNat, frameBits_toNat,
    Nat.shiftRight_eq_div_pow, Nat.pow_mul, Nat.pow_mul]

end

/-! ### The record and the bytes of its fields (R79, R80) -/

theorem fieldBytes_length (f : Frame) (n : FieldName) : (fieldBytes f n).length = n.bytes := by
  have h := offset_add_bytes_le n
  rw [fieldBytes, List.length_take, List.length_drop, Vector.length_toList]; omega

theorem fieldBytes_getElem (f : Frame) (n : FieldName) (i : Fin 32) (ho : n.offset ≤ i.val)
    (h : i.val - n.offset < (fieldBytes f n).length) : (fieldBytes f n)[i.val - n.offset] = f.get i := by
  simp [fieldBytes, Vector.get, Nat.add_sub_cancel' ho]

theorem fieldBytes_eq_iff (f g : Frame) (n : FieldName) :
    fieldBytes f n = fieldBytes g n ↔
      ∀ i : Fin 32, n.offset ≤ i.val → i.val < n.offset + n.bytes → f.get i = g.get i := by
  have hfit := offset_add_bytes_le n
  constructor
  · intro h i ho hb
    have hf : i.val - n.offset < (fieldBytes f n).length := by rw [fieldBytes_length]; omega
    calc f.get i = (fieldBytes f n)[i.val - n.offset] := (fieldBytes_getElem f n i ho hf).symm
      _ = (fieldBytes g n)[i.val - n.offset]'(h ▸ hf) := by simp only [h]
      _ = g.get i := fieldBytes_getElem g n i ho _
  · intro h
    refine List.ext_getElem (by rw [fieldBytes_length, fieldBytes_length]) fun k hk hk' => ?_
    have hk32 : k < n.bytes := by rwa [fieldBytes_length] at hk
    have hcell := h ⟨n.offset + k, by omega⟩ (by simp) (by simpa using hk32)
    simpa [fieldBytes, Vector.get] using hcell

/-- A record is known from its 14 raw values. -/
theorem record_ext_raw {r r' : TelemetryRecord} (h : ∀ n, r.raw n = r'.raw n) : r = r' := by
  cases r
  cases r'
  simp only [TelemetryRecord.mk.injEq]
  exact ⟨BitVec.eq_of_toNat_eq (h .solarVoltage1), BitVec.eq_of_toNat_eq (h .solarCurrent),
    BitVec.eq_of_toNat_eq (h .solarVoltage2), BitVec.eq_of_toNat_eq (h .lineVoltage),
    BitVec.eq_of_toNat_eq (h .lineCurrent), BitVec.eq_of_toNat_eq (h .temperature),
    BitVec.eq_of_toNat_eq (h .energyToday), BitVec.eq_of_toNat_eq (h .energyTotal),
    BitVec.eq_of_toNat_eq (h .faultCode), BitVec.eq_of_toNat_eq (h .runStatus),
    BitVec.eq_of_toNat_eq (h .frequency), BitVec.eq_of_toNat_eq (h .operationTime),
    BitVec.eq_of_toNat_eq (h .powerFactor), BitVec.eq_of_toNat_eq (h .dspVersion)⟩

theorem decodeRecord_eq_iff_fieldBytes (f g : Frame) :
    decodeRecord f = decodeRecord g ↔ ∀ n, fieldBytes f n = fieldBytes g n := by
  constructor
  · intro h n
    refine leNat_injective (by rw [fieldBytes_length, fieldBytes_length]) ?_
    have hraw := congrArg (TelemetryRecord.raw · n) h
    simp only [raw_eq_memRead] at hraw
    exact hraw
  · intro h
    refine record_ext_raw fun n => ?_
    rw [raw_eq_memRead, raw_eq_memRead]
    exact congrArg leNat (h n)

/-- The fields cover the offsets 3 to 30. -/
theorem exists_field_at : ∀ i : Fin 32, 3 ≤ i.val → i.val ≤ 30 →
    ∃ n ∈ allFields, n.offset ≤ i.val ∧ i.val < n.offset + n.bytes := by
  decide

theorem three_le_offset (n : FieldName) : 3 ≤ n.offset := by
  cases n <;> decide

theorem decodeRecord_eq_iff (f g : Frame) :
    decodeRecord f = decodeRecord g ↔ ∀ i : Fin 32, 3 ≤ i.val → i.val ≤ 30 → f.get i = g.get i := by
  simp only [decodeRecord_eq_iff_fieldBytes, fieldBytes_eq_iff]
  constructor
  · intro h i h3 h30
    obtain ⟨n, -, ho, hb⟩ := exists_field_at i h3 h30
    exact h n i ho hb
  · intro h n i ho hb
    have hlow := three_le_offset n
    have hfit := offset_add_bytes_le n
    exact h i (by omega) (by omega)

/-! ### A frame for every record -/

/-- The `n` lowest bytes of a number, the lowest first. -/
def leBytes (n x : Nat) : List Byte := (List.range n).map fun k => BitVec.ofNat 8 (x / 256 ^ k)

theorem leNat_leBytes (n x : Nat) : leNat (leBytes n x) = x % 256 ^ n := by
  induction n generalizing x with
  | zero => simp [leBytes, leNat, Nat.mod_one]
  | succ n ih =>
    have hcons : leBytes (n + 1) x = BitVec.ofNat 8 x :: leBytes n (x / 256) := by
      simp [leBytes, List.range_succ_eq_map, Nat.div_div_eq_div_mul, Nat.pow_succ']
    rw [hcons, leNat, ih, Nat.pow_succ', Nat.mod_mul, BitVec.toNat_ofNat]

theorem raw_lt (r : TelemetryRecord) (n : FieldName) : r.raw n < 256 ^ n.bytes := by
  cases n <;> exact BitVec.isLt _

/-- Free bytes that carry the record `r`; the byte at offset 2 is in no field. -/
def payloadOfRecord (r : TelemetryRecord) : Payload :=
  ⟨(0#8 :: allFields.flatMap fun n => leBytes n.bytes (r.raw n)).toArray, rfl⟩

theorem leBytes_length (n x : Nat) : (leBytes n x).length = n := by
  rw [leBytes, List.length_map, List.length_range]

theorem frameOfPayload_toList (p : Payload) :
    (frameOfPayload p).toList = Config.hdr1 :: Config.hdr2 :: (p.toList ++ [xorBytes (frameHead p).toList]) := by
  have hhead : (frameHead p).toList = [Config.hdr1, Config.hdr2] ++ p.toList := Vector.toList_append
  rw [frameOfPayload, Vector.toList_push, hhead]
  rfl

/-- The fields stand one behind the other, from offset 3 on (30_encoding.md R31). -/
theorem allFields_split (n : FieldName) :
    ∃ pre post, allFields = pre ++ n :: post ∧ n.offset = (pre.map FieldName.bytes).sum + 3 := by
  refine ⟨allFields.take (allFields.idxOf n), allFields.drop (allFields.idxOf n + 1), ?_⟩
  cases n <;> decide

theorem take_drop_flatMap {g : FieldName → List Byte} (hg : ∀ n, (g n).length = n.bytes) (pre post : List FieldName)
    (n : FieldName) (rest : List Byte) :
    (((pre ++ n :: post).flatMap g ++ rest).drop (pre.map FieldName.bytes).sum).take n.bytes = g n := by
  have hpre : (pre.flatMap g).length = (pre.map FieldName.bytes).sum := by
    rw [List.length_flatMap]; simp only [hg]
  rw [List.flatMap_append, List.flatMap_cons, List.append_assoc, List.append_assoc, List.drop_left' hpre,
    List.take_left' (hg n)]

theorem fieldBytes_payloadOfRecord (r : TelemetryRecord) (n : FieldName) :
    fieldBytes (frameOfPayload (payloadOfRecord r)) n = leBytes n.bytes (r.raw n) := by
  obtain ⟨pre, post, hall, hoff⟩ := allFields_split n
  have hpay : (payloadOfRecord r).toList = 0#8 :: allFields.flatMap fun n => leBytes n.bytes (r.raw n) := rfl
  rw [fieldBytes, frameOfPayload_toList, hpay, hoff, List.cons_append, List.drop_succ_cons, List.drop_succ_cons,
    List.drop_succ_cons, hall]
  exact take_drop_flatMap (fun n => leBytes_length n.bytes (r.raw n)) pre post n _

theorem decodeRecord_payloadOfRecord (r : TelemetryRecord) :
    decodeRecord (frameOfPayload (payloadOfRecord r)) = r := by
  refine record_ext_raw fun n => ?_
  calc (decodeRecord (frameOfPayload (payloadOfRecord r))).raw n
      = leNat (fieldBytes (frameOfPayload (payloadOfRecord r)) n) := raw_eq_memRead _ n
    _ = r.raw n % 256 ^ n.bytes := by rw [fieldBytes_payloadOfRecord, leNat_leBytes]
    _ = r.raw n := Nat.mod_eq_of_lt (raw_lt r n)

/-! ### DECODE as its field operations (R60) -/

/-- The operation of a field. -/
def fieldInstr (f : Frame) : FieldName → Instr
  | .solarVoltage1 => .fldSolarVoltage1 f
  | .solarCurrent => .fldSolarCurrent f
  | .solarVoltage2 => .fldSolarVoltage2 f
  | .lineVoltage => .fldLineVoltage f
  | .lineCurrent => .fldLineCurrent f
  | .temperature => .fldTemperature f
  | .energyToday => .fldEnergyToday f
  | .energyTotal => .fldEnergyTotal f
  | .faultCode => .fldFaultCode f
  | .runStatus => .fldRunStatus f
  | .frequency => .fldFrequency f
  | .operationTime => .fldOperationTime f
  | .powerFactor => .fldPowerFactor f
  | .dspVersion => .fldDspVersion f

/-- The assignment of a field. -/
def putField (f : Frame) : FieldName → TelemetryPort → TelemetryPort
  | .solarVoltage1 => putSolarVoltage1 f
  | .solarCurrent => putSolarCurrent f
  | .solarVoltage2 => putSolarVoltage2 f
  | .lineVoltage => putLineVoltage f
  | .lineCurrent => putLineCurrent f
  | .temperature => putTemperature f
  | .energyToday => putEnergyToday f
  | .energyTotal => putEnergyTotal f
  | .faultCode => putFaultCode f
  | .runStatus => putRunStatus f
  | .frequency => putFrequency f
  | .operationTime => putOperationTime f
  | .powerFactor => putPowerFactor f
  | .dspVersion => putDspVersion f

section
variable (f : Frame)

theorem exec_fieldInstr (n : FieldName) (s : State) :
    exec (fieldInstr f n) s = .next (s.setTelemetry (putField f n s.out.telemetry)) := by
  cases n <;> rfl

/-- Each assignment writes its own field with a value that depends on the frame only. -/
theorem putField_comm (m n : FieldName) (p : TelemetryPort) :
    putField f m (putField f n p) = putField f n (putField f m p) := by
  cases m <;> cases n <;> rfl

theorem runInstrs_fields (ns : List FieldName) (s : State) :
    runInstrs (ns.map (fieldInstr f)) s =
      .next (s.setTelemetry (ns.foldl (fun p n => putField f n p) s.out.telemetry)) := by
  induction ns generalizing s with
  | nil => rfl
  | cons n ns ih =>
    rw [List.map_cons, runInstrs, exec_fieldInstr]
    exact ih _

/-- Field operations of one frame can be run in any order. -/
theorem runInstrs_perm {l m : List Instr} (h : l.Perm m) (hl : ∀ i ∈ l, ∃ n, i = fieldInstr f n) (s : State) :
    runInstrs l s = runInstrs m s := by
  induction h generalizing s with
  | nil => rfl
  | cons i _ ih =>
    obtain ⟨⟨n, rfl⟩, hrest⟩ := List.forall_mem_cons.mp hl
    simp only [runInstrs, exec_fieldInstr, ih hrest]
  | swap i j l =>
    obtain ⟨⟨n, rfl⟩, hrest⟩ := List.forall_mem_cons.mp hl
    obtain ⟨⟨m, rfl⟩, -⟩ := List.forall_mem_cons.mp hrest
    simp only [runInstrs, exec_fieldInstr, State.setTelemetry, putField_comm f n m]
  | trans h₁ _ ih₁ ih₂ =>
    rw [ih₁ hl, ih₂ fun i hi => hl i (h₁.mem_iff.mpr hi)]

end

/-! ### The fault code -/

theorem toNat_append_byte {w : Nat} (x : BitVec w) (b : Byte) : (x ++ b).toNat = 256 * x.toNat + b.toNat := by
  rw [BitVec.toNat_append, Nat.shiftLeft_eq, Nat.mul_comm, ← Nat.two_pow_add_eq_or_of_lt b.isLt]

theorem u32le_eq_append (f : Frame) (a b c d : Fin 32) :
    u32le f a b c d = f.get d ++ f.get c ++ f.get b ++ f.get a := by
  apply BitVec.eq_of_toNat_eq
  rw [u32le_toNat, toNat_append_byte, toNat_append_byte, toNat_append_byte]
  omega

theorem mem_faultsReported (raw : BitVec 32) (n : FaultName) : n ∈ faultsReported raw ↔ raw.getLsbD n.bit = true := by
  have hall : n ∈ allFaults := by cases n <;> decide
  rw [faultsReported, List.mem_filter, faultSet]
  exact and_iff_right hall

theorem documented_bit (n : FaultName) : n.bit < 24 ∧ documentedFaultMask.getLsbD n.bit = true := by
  cases n <;> decide

theorem exists_fault_of_documented_bit : ∀ i < 32, documentedFaultMask.getLsbD i = true →
    ∃ n ∈ allFaults, n.bit = i := by
  decide

/-! ### The decimal rendering (30_encoding.md R35) -/

section
variable (k raw : Nat)

theorem fracDigits_length : (fracDigits k raw).length = k := by
  induction k with
  | zero => rfl
  | succ k ih => rw [fracDigits, List.length_cons, ih]

theorem fracDigits_lt : ∀ d ∈ fracDigits k raw, d < 10 := by
  induction k with
  | zero => exact fun d hd => absurd hd List.not_mem_nil
  | succ k ih => exact List.forall_mem_cons.mpr ⟨Nat.mod_lt _ (by decide), ih⟩

/-- Read from the digits `a` on, the fractional digits append `raw mod 10^k`. -/
theorem foldl_fracDigits (a : Nat) :
    (fracDigits k raw).foldl (fun a d => 10 * a + d) a = a * 10 ^ k + raw % 10 ^ k := by
  induction k generalizing a with
  | zero => simp [fracDigits, Nat.mod_one]
  | succ k ih =>
    rw [fracDigits, List.foldl_cons, ih, Nat.pow_succ, Nat.mod_mul]
    ring

end

/-! ### The obligations -/

/-- Settles O28: the assignment by definition, and the three readings of the byte. -/
theorem runStatusIsTheByte : Obligations.RunStatusIsTheByte :=
  ⟨fun _ _ => rfl, rfl, rfl, fun _ h0 h1 => by rw [runStatusOf, if_neg h0, if_neg h1], rfl, rfl⟩

/-- Settles O29: the record of one frame, computed. -/
theorem testFrameRecord : Obligations.TestFrameRecord := by
  unfold Obligations.TestFrameRecord
  decide

/-- Settles O30: the 14 assignments are the record's port. -/
theorem decodeFillsTheRecord : Obligations.DecodeFillsTheRecord :=
  fun f _ => ⟨_, rfl, record_port (decodeRecord f), rfl, rfl, rfl, rfl, rfl, rfl, rfl⟩

/-- Settles O31: the field operations commute, and in R60's order they are DECODE by definition. -/
theorem decodeIsItsFieldsInAnyOrder : Obligations.DecodeIsItsFieldsInAnyOrder := by
  intro f s ops h
  have hops : ops.Perm (allFields.map (fieldInstr f)) := h
  have hfields : ∀ i ∈ ops, ∃ n, i = fieldInstr f n := by
    intro i hi
    obtain ⟨n, -, rfl⟩ := List.mem_map.mp (hops.mem_iff.mp hi)
    exact ⟨n, rfl⟩
  rw [runInstrs_perm f hops hfields, runInstrs_fields]
  rfl

/-- Settles O32: a field is the read of its bytes, and a read is a slice. -/
theorem fieldsAreLittleEndianSlices : Obligations.FieldsAreLittleEndianSlices := by
  intro f n
  have hfit := offset_add_bytes_le n
  exact ⟨raw_eq_memRead f n, (raw_eq_memRead f n).trans (memRead_eq_slice f _ _ (by omega))⟩

/-- Settles O33. -/
theorem recordIsTheFieldBytes : Obligations.RecordIsTheFieldBytes :=
  ⟨decodeRecord_eq_iff, fun r => ⟨_, isRawFrame_frameOfPayload _, decodeRecord_payloadOfRecord r⟩⟩

/-- Settles O34: the table bit by bit. -/
theorem faultBitTable : Obligations.FaultBitTable := by
  refine ⟨mem_faultsReported, fun f n h => ?_, documented_bit, fun i hi => ?_, by decide, rfl, rfl, by decide, rfl⟩
  · rw [mem_faultsReported]
    exact Bool.eq_iff_iff.mp (rawFaultCode_getLsbD f n.bit (by omega))
  · obtain ⟨n, -, hn⟩ := exists_fault_of_documented_bit i (BitVec.lt_of_getLsbD hi) hi
    exact ⟨n, hn⟩

/-- Settles O35: the append at cursor 31 leaves the four bytes of the fault code as they are. -/
theorem reservedFaultBitsPreserved : Obligations.ReservedFaultBitsPreserved := by
  intro s b rest hin hc hb
  refine ⟨_, decodeRecord (rxCommon b s.popInput).buf, (StepCase.lastOk b rest hin hc hb).step_eq, rfl,
    record_port (decodeRecord _), ?_⟩
  have hkept : ∀ i : Fin 32, i ≠ 31 → (rxCommon b s.popInput).buf.get i = s.buf.get i := fun i hi =>
    rxCommon_get_of_ne (s := s.popInput) (k := 31) b (by rw [State.popInput_cur, hc]; rfl) hi
  rw [← hkept 20 (by decide), ← hkept 21 (by decide), ← hkept 22 (by decide), ← hkept 23 (by decide)]
  exact u32le_eq_append _ 20 21 22 23

/-- Settles O36: values are quotients of natural numbers. -/
theorem fieldsAreUnsigned : Obligations.FieldsAreUnsigned := by
  refine ⟨fun r n => div_nonneg (Nat.cast_nonneg _) (by positivity), fun r hr => ?_⟩
  have hraw : r.raw .temperature = 65535 := by rw [TelemetryRecord.raw, hr]; rfl
  rw [value_of_exp10_one rfl, hraw]
  norm_num

/-- Settles O37: the fractional digits are those of `raw mod 10^k`. -/
theorem decimalRenderingExact : Obligations.DecimalRenderingExact := by
  intro r n
  refine ⟨fracDigits_length _ _, fracDigits_lt _ _, ?_⟩
  rw [foldl_fracDigits, Nat.zero_mul, Nat.zero_add, TelemetryRecord.value, wholePart]
  generalize r.raw n = raw, n.exp10 = k
  have hsplit : (raw : ℚ) = 10 ^ k * (raw / 10 ^ k : Nat) + (raw % 10 ^ k : Nat) := by
    exact_mod_cast (Nat.div_add_mod raw (10 ^ k)).symm
  have hpos : (10 : ℚ) ^ k ≠ 0 := by positivity
  field_simp
  linarith

end Sys2Proof.Machine
end
